-- ==== Sys2Proof/Word.lean ====
section
/-! DEFINITION. The word types of the machine and the two cores' names (spec/00_scope.md R1 to R3, R8). -/

namespace Sys2Proof

/-- One byte of the address space (R70). -/
abbrev Byte := BitVec 8

/-- A Thumb half-word (R130). -/
abbrev Half := BitVec 16

/-- XLEN = 32: a register, an address, an ARM instruction word (R8). -/
abbrev Word := BitVec 32

/-- TIME_BITS = 64: scheduler time and core timestamps (R8, R30, R37). -/
abbrev Dword := BitVec 64

/-- The two cores (R1): A7 is `ARCH = ARMv4`, A9 is `ARCH = ARMv5` (R3). -/
inductive CoreId where
  | a7
  | a9
deriving DecidableEq, Repr

/-- The three access widths of the memory system (R71): 8, 16 and 32 bits. -/
inductive Width where
  | w8
  | w16
  | w32
deriving DecidableEq, Repr

/-- The two directions of an access; `Resolve` and the page tables depend on it (R76, R89). -/
inductive Dir where
  | read
  | write
deriving DecidableEq, Repr

end Sys2Proof
end

