-- ==== Sys2Proof/Syntax.lean ====
section
/-! DEFINITION. The instructions as syntax: one constructor per row of spec/opcode_table.json, its operands the fields
of spec/30_encoding.md R138 to R152. A field the decoder ignores ("should be zero / one", R131) is kept under the name
`sbz` or `sbo`, so that an instruction and its word determine each other. -/

namespace Sys2Proof

/-- The `type` field of a shifted operand (R138): 0 LSL, 1 LSR, 2 ASR, 3 ROR. -/
inductive ShiftType where
  | lsl
  | lsr
  | asr
  | ror
deriving DecidableEq, Repr

/-- The head of a data-processing instruction that writes `Rd` (R138). -/
structure DpHead where
  /-- bits 31:28 -/
  cond : BitVec 4
  /-- bit 20: set the flags -/
  s : BitVec 1
  /-- bits 19:16 (ignored by MOV and MVN) -/
  rn : BitVec 4
  /-- bits 15:12 -/
  rd : BitVec 4
deriving DecidableEq, Repr

/-- The head of TST, TEQ, CMP, CMN (R138): the S bit is 1 and `rd` is ignored (R213). -/
structure CmpHead where
  /-- bits 31:28 -/
  cond : BitVec 4
  /-- bits 19:16 -/
  rn : BitVec 4
  /-- bits 15:12, ignored -/
  rd : BitVec 4
deriving DecidableEq, Repr

/-- Operand 2, rotated immediate (R138, R201). -/
structure ImmOperand where
  /-- bits 11:8 -/
  rotate : BitVec 4
  /-- bits 7:0 -/
  imm8 : BitVec 8
deriving DecidableEq, Repr

/-- Operand 2, `Rm` shifted by an immediate (R138, R202 to R205). -/
structure ShiftImmOperand where
  /-- bits 11:7 -/
  amount : BitVec 5
  /-- bits 6:5 -/
  type : ShiftType
  /-- bits 3:0 -/
  rm : BitVec 4
deriving DecidableEq, Repr

/-- Operand 2, `Rm` shifted by `Rs` (R138, R206). -/
structure ShiftRegOperand where
  /-- bits 11:8 -/
  rs : BitVec 4
  /-- bits 6:5 -/
  type : ShiftType
  /-- bits 3:0 -/
  rm : BitVec 4
deriving DecidableEq, Repr

/-- MUL, MLA (R139). -/
structure MulOps where
  /-- bits 31:28 -/
  cond : BitVec 4
  /-- bit 20 -/
  s : BitVec 1
  /-- bits 19:16 -/
  rd : BitVec 4
  /-- bits 15:12 (ignored by MUL) -/
  rn : BitVec 4
  /-- bits 11:8 -/
  rs : BitVec 4
  /-- bits 3:0 -/
  rm : BitVec 4
deriving DecidableEq, Repr

/-- UMULL, UMLAL, SMULL, SMLAL (R139). -/
structure MullOps where
  /-- bits 31:28 -/
  cond : BitVec 4
  /-- bit 20 -/
  s : BitVec 1
  /-- bits 19:16 -/
  rdHi : BitVec 4
  /-- bits 15:12 -/
  rdLo : BitVec 4
  /-- bits 11:8 -/
  rs : BitVec 4
  /-- bits 3:0 -/
  rm : BitVec 4
deriving DecidableEq, Repr

/-- SWP, SWPB (R140). -/
structure SwpOps where
  /-- bits 31:28 -/
  cond : BitVec 4
  /-- bits 19:16 -/
  rn : BitVec 4
  /-- bits 15:12 -/
  rd : BitVec 4
  /-- bits 11:8, ignored -/
  sbz : BitVec 4
  /-- bits 3:0 -/
  rm : BitVec 4
deriving DecidableEq, Repr

/-- Halfword, signed or doubleword transfer, register offset (R141). -/
structure HdtRegOps where
  /-- bits 31:28 -/
  cond : BitVec 4
  /-- bit 24 -/
  p : BitVec 1
  /-- bit 23 -/
  u : BitVec 1
  /-- bit 21 -/
  w : BitVec 1
  /-- bits 19:16 -/
  rn : BitVec 4
  /-- bits 15:12 -/
  rd : BitVec 4
  /-- bits 11:8, ignored -/
  sbz : BitVec 4
  /-- bits 3:0 -/
  rm : BitVec 4
deriving DecidableEq, Repr

/-- Halfword, signed or doubleword transfer, 8-bit immediate offset (R141). -/
structure HdtImmOps where
  /-- bits 31:28 -/
  cond : BitVec 4
  /-- bit 24 -/
  p : BitVec 1
  /-- bit 23 -/
  u : BitVec 1
  /-- bit 21 -/
  w : BitVec 1
  /-- bits 19:16 -/
  rn : BitVec 4
  /-- bits 15:12 -/
  rd : BitVec 4
  /-- bits 11:8 -/
  immHi : BitVec 4
  /-- bits 3:0 -/
  immLo : BitVec 4
deriving DecidableEq, Repr

/-- MRS (R146). -/
structure MrsOps where
  /-- bits 31:28 -/
  cond : BitVec 4
  /-- bit 22: 1 = SPSR -/
  r : BitVec 1
  /-- bits 19:16, ignored -/
  sbo : BitVec 4
  /-- bits 15:12 -/
  rd : BitVec 4
  /-- bits 11:8, ignored -/
  sbz : BitVec 4
  /-- bits 3:0, ignored -/
  sbz2 : BitVec 4
deriving DecidableEq, Repr

/-- MSR, register operand (R146). -/
structure MsrRegOps where
  /-- bits 31:28 -/
  cond : BitVec 4
  /-- bits 19:16: f s x c -/
  mask : BitVec 4
  /-- bits 15:12, ignored -/
  sbo : BitVec 4
  /-- bits 11:8, ignored -/
  sbz : BitVec 4
  /-- bits 3:0 -/
  rm : BitVec 4
deriving DecidableEq, Repr

/-- MSR, immediate operand (R146). -/
structure MsrImmOps where
  /-- bits 31:28 -/
  cond : BitVec 4
  /-- bits 19:16: f s x c -/
  mask : BitVec 4
  /-- bits 15:12, ignored -/
  sbo : BitVec 4
  /-- bits 11:8 -/
  rotate : BitVec 4
  /-- bits 7:0 -/
  imm8 : BitVec 8
deriving DecidableEq, Repr

/-- BX, BLX Rm (R145). -/
structure BxOps where
  /-- bits 31:28 -/
  cond : BitVec 4
  /-- bits 19:8, ignored -/
  sbo : BitVec 12
  /-- bits 3:0 -/
  rm : BitVec 4
deriving DecidableEq, Repr

/-- BKPT, ARM form (R391). -/
structure BkptOps where
  /-- bits 31:28 -/
  cond : BitVec 4
  /-- bits 19:8 -/
  imm12 : BitVec 12
  /-- bits 3:0 -/
  imm4 : BitVec 4
deriving DecidableEq, Repr

/-- CLZ (R145). -/
structure ClzOps where
  /-- bits 31:28 -/
  cond : BitVec 4
  /-- bits 19:16, ignored -/
  sbo : BitVec 4
  /-- bits 15:12 -/
  rd : BitVec 4
  /-- bits 11:8, ignored -/
  sbo2 : BitVec 4
  /-- bits 3:0 -/
  rm : BitVec 4
deriving DecidableEq, Repr

/-- QADD, QSUB, QDADD, QDSUB (R147). -/
structure QOps where
  /-- bits 31:28 -/
  cond : BitVec 4
  /-- bits 19:16 -/
  rn : BitVec 4
  /-- bits 15:12 -/
  rd : BitVec 4
  /-- bits 11:8, ignored -/
  sbz : BitVec 4
  /-- bits 3:0 -/
  rm : BitVec 4
deriving DecidableEq, Repr

/-- SMLAxy, SMULxy (R147). -/
structure SmulOps where
  /-- bits 31:28 -/
  cond : BitVec 4
  /-- bits 19:16 -/
  rd : BitVec 4
  /-- bits 15:12 (ignored by SMULxy) -/
  rn : BitVec 4
  /-- bits 11:8 -/
  rs : BitVec 4
  /-- bit 6 -/
  y : BitVec 1
  /-- bit 5 -/
  x : BitVec 1
  /-- bits 3:0 -/
  rm : BitVec 4
deriving DecidableEq, Repr

/-- SMLALxy (R147). -/
structure SmlalOps where
  /-- bits 31:28 -/
  cond : BitVec 4
  /-- bits 19:16 -/
  rdHi : BitVec 4
  /-- bits 15:12 -/
  rdLo : BitVec 4
  /-- bits 11:8 -/
  rs : BitVec 4
  /-- bit 6 -/
  y : BitVec 1
  /-- bit 5 -/
  x : BitVec 1
  /-- bits 3:0 -/
  rm : BitVec 4
deriving DecidableEq, Repr

/-- SMLAWy, SMULWy (R147). -/
structure SmulwOps where
  /-- bits 31:28 -/
  cond : BitVec 4
  /-- bits 19:16 -/
  rd : BitVec 4
  /-- bits 15:12 (ignored by SMULWy) -/
  rn : BitVec 4
  /-- bits 11:8 -/
  rs : BitVec 4
  /-- bit 6 -/
  y : BitVec 1
  /-- bits 3:0 -/
  rm : BitVec 4
deriving DecidableEq, Repr

/-- Word or byte transfer, 12-bit immediate offset (R142). -/
structure SdtImmOps where
  /-- bits 31:28 -/
  cond : BitVec 4
  /-- bit 24 -/
  p : BitVec 1
  /-- bit 23 -/
  u : BitVec 1
  /-- bit 21 -/
  w : BitVec 1
  /-- bits 19:16 -/
  rn : BitVec 4
  /-- bits 15:12 -/
  rd : BitVec 4
  /-- bits 11:0 -/
  offset : BitVec 12
deriving DecidableEq, Repr

/-- Word or byte transfer, shifted-register offset (R142). -/
structure SdtRegOps where
  /-- bits 31:28 -/
  cond : BitVec 4
  /-- bit 24 -/
  p : BitVec 1
  /-- bit 23 -/
  u : BitVec 1
  /-- bit 21 -/
  w : BitVec 1
  /-- bits 19:16 -/
  rn : BitVec 4
  /-- bits 15:12 -/
  rd : BitVec 4
  /-- bits 11:7 -/
  amount : BitVec 5
  /-- bits 6:5 -/
  type : ShiftType
  /-- bits 3:0 -/
  rm : BitVec 4
deriving DecidableEq, Repr

/-- The T forms (P = 0, W = 1), immediate offset (R257). -/
structure SdtTImmOps where
  /-- bits 31:28 -/
  cond : BitVec 4
  /-- bit 23 -/
  u : BitVec 1
  /-- bits 19:16 -/
  rn : BitVec 4
  /-- bits 15:12 -/
  rd : BitVec 4
  /-- bits 11:0 -/
  offset : BitVec 12
deriving DecidableEq, Repr

/-- The T forms (P = 0, W = 1), register offset (R257). -/
structure SdtTRegOps where
  /-- bits 31:28 -/
  cond : BitVec 4
  /-- bit 23 -/
  u : BitVec 1
  /-- bits 19:16 -/
  rn : BitVec 4
  /-- bits 15:12 -/
  rd : BitVec 4
  /-- bits 11:7 -/
  amount : BitVec 5
  /-- bits 6:5 -/
  type : ShiftType
  /-- bits 3:0 -/
  rm : BitVec 4
deriving DecidableEq, Repr

/-- LDM, STM (R143). -/
structure BdtOps where
  /-- bits 31:28 -/
  cond : BitVec 4
  /-- bit 24 -/
  p : BitVec 1
  /-- bit 23 -/
  u : BitVec 1
  /-- bit 22 -/
  s : BitVec 1
  /-- bit 21 -/
  w : BitVec 1
  /-- bits 19:16 -/
  rn : BitVec 4
  /-- bits 15:0: bit i = register i -/
  list : BitVec 16
deriving DecidableEq, Repr

/-- B, BL (R144). -/
structure BranchOps where
  /-- bits 31:28 -/
  cond : BitVec 4
  /-- bits 23:0 -/
  imm24 : BitVec 24
deriving DecidableEq, Repr

/-- BLX label (R144): the condition field is 1111. -/
structure BlxLabelOps where
  /-- bit 24 -/
  h : BitVec 1
  /-- bits 23:0 -/
  imm24 : BitVec 24
deriving DecidableEq, Repr

/-- PLD (R148): the condition field is 1111. -/
structure PldOps where
  /-- bit 25 -/
  i : BitVec 1
  /-- bit 23 -/
  u : BitVec 1
  /-- bits 19:16 -/
  rn : BitVec 4
  /-- bits 15:12, ignored -/
  sbo : BitVec 4
  /-- bits 11:0 -/
  offset : BitVec 12
deriving DecidableEq, Repr

/-- MRC and MCR of coprocessor 15, opcode1 = 0 (R148). -/
structure CoprocOps where
  /-- bits 31:28 -/
  cond : BitVec 4
  /-- bits 19:16 -/
  crn : BitVec 4
  /-- bits 15:12 -/
  rd : BitVec 4
  /-- bits 7:5 -/
  op2 : BitVec 3
  /-- bits 3:0 -/
  crm : BitVec 4
deriving DecidableEq, Repr

/-- MRC and MCR outside R384 (R148). -/
structure CoprocOtherOps where
  /-- bits 31:28 -/
  cond : BitVec 4
  /-- bits 23:21 -/
  op1 : BitVec 3
  /-- bit 20 -/
  l : BitVec 1
  /-- bits 19:16 -/
  crn : BitVec 4
  /-- bits 15:12 -/
  rd : BitVec 4
  /-- bits 11:8 -/
  cp : BitVec 4
  /-- bits 7:5 -/
  op2 : BitVec 3
  /-- bits 3:0 -/
  crm : BitVec 4
deriving DecidableEq, Repr

/-- SWI, ARM form (R148). -/
structure SwiOps where
  /-- bits 31:28 -/
  cond : BitVec 4
  /-- bits 23:0, ignored by the block -/
  comment : BitVec 24
deriving DecidableEq, Repr

/-- Thumb format 1 (R151). -/
structure TShiftOps where
  /-- bits 10:6 -/
  imm5 : BitVec 5
  /-- bits 5:3 -/
  rs : BitVec 3
  /-- bits 2:0 -/
  rd : BitVec 3
deriving DecidableEq, Repr

/-- Thumb format 2, register operand (R151). -/
structure TAddRegOps where
  /-- bits 8:6 -/
  rn : BitVec 3
  /-- bits 5:3 -/
  rs : BitVec 3
  /-- bits 2:0 -/
  rd : BitVec 3
deriving DecidableEq, Repr

/-- Thumb format 2, immediate operand (R151). -/
structure TAddImmOps where
  /-- bits 8:6 -/
  imm3 : BitVec 3
  /-- bits 5:3 -/
  rs : BitVec 3
  /-- bits 2:0 -/
  rd : BitVec 3
deriving DecidableEq, Repr

/-- Thumb formats 3, 6, 11 and 12 (R151, R152). -/
structure TImm8Ops where
  /-- bits 10:8 -/
  rd : BitVec 3
  /-- bits 7:0 -/
  imm8 : BitVec 8
deriving DecidableEq, Repr

/-- Thumb format 4 (R151). -/
structure TAluOps where
  /-- bits 5:3 -/
  rs : BitVec 3
  /-- bits 2:0 -/
  rd : BitVec 3
deriving DecidableEq, Repr

/-- Thumb format 5, high registers (R151): `Rd` = H1 :: bits 2:0, `Rs` = H2 :: bits 5:3. -/
structure THiOps where
  /-- bit 7 -/
  h1 : BitVec 1
  /-- bit 6 -/
  h2 : BitVec 1
  /-- bits 5:3 -/
  rsLow : BitVec 3
  /-- bits 2:0 -/
  rdLow : BitVec 3
deriving DecidableEq, Repr

/-- Thumb format 5, BX and BLX (R151): `Rs` = H2 :: bits 5:3. -/
structure TBxOps where
  /-- bit 6 -/
  h2 : BitVec 1
  /-- bits 5:3 -/
  rsLow : BitVec 3
  /-- bits 2:0, ignored -/
  sbz : BitVec 3
deriving DecidableEq, Repr

/-- Thumb formats 7 and 8 (R151). -/
structure TRegOffOps where
  /-- bits 8:6 -/
  ro : BitVec 3
  /-- bits 5:3 -/
  rb : BitVec 3
  /-- bits 2:0 -/
  rd : BitVec 3
deriving DecidableEq, Repr

/-- Thumb formats 9 and 10 (R152). -/
structure TImmOffOps where
  /-- bits 10:6 -/
  imm5 : BitVec 5
  /-- bits 5:3 -/
  rb : BitVec 3
  /-- bits 2:0 -/
  rd : BitVec 3
deriving DecidableEq, Repr

/-- Thumb format 13 (R152). -/
structure TAdjOps where
  /-- bits 6:0 -/
  imm7 : BitVec 7
deriving DecidableEq, Repr

/-- Thumb format 14 (R152). -/
structure TPushPopOps where
  /-- bit 8: PUSH adds LR, POP adds PC -/
  r : BitVec 1
  /-- bits 7:0 -/
  rlist : BitVec 8
deriving DecidableEq, Repr

/-- Thumb format 15 (R152). -/
structure TBlockOps where
  /-- bits 10:8 -/
  rb : BitVec 3
  /-- bits 7:0 -/
  rlist : BitVec 8
deriving DecidableEq, Repr

/-- Thumb format 16 (R152). -/
structure TCondOps where
  /-- bits 11:8, 0 to 13 -/
  cond : BitVec 4
  /-- bits 7:0 -/
  soffset : BitVec 8
deriving DecidableEq, Repr

/-- Thumb SWI and BKPT (R152, R391). -/
structure TCommentOps where
  /-- bits 7:0, ignored -/
  comment : BitVec 8
deriving DecidableEq, Repr

/-- Thumb formats 18 and 19 (R152). -/
structure TBranchOps where
  /-- bits 10:0 -/
  offset : BitVec 11
deriving DecidableEq, Repr

/-- The instructions: rows 0 to 119 of the opcode table are ARM, rows 120 to 187 Thumb. Two rows may share their bits
where they apply on different cores; `decode` takes the core. A row that only names a class of unknown words carries the
whole word, which is what the unknown log records (R390). -/
inductive Instr where
  /-- Row 0: AND (immediate operand), ARM DP_IMM (R214). -/
  | andImm (h : DpHead) (x : ImmOperand)
  /-- Row 1: AND (register, shift by immediate), ARM DP_IMMSHIFT (R214). -/
  | andShiftImm (h : DpHead) (x : ShiftImmOperand)
  /-- Row 2: AND (register, shift by register), ARM DP_REGSHIFT (R214). -/
  | andShiftReg (h : DpHead) (x : ShiftRegOperand)
  /-- Row 3: EOR (immediate operand), ARM DP_IMM (R215). -/
  | eorImm (h : DpHead) (x : ImmOperand)
  /-- Row 4: EOR (register, shift by immediate), ARM DP_IMMSHIFT (R215). -/
  | eorShiftImm (h : DpHead) (x : ShiftImmOperand)
  /-- Row 5: EOR (register, shift by register), ARM DP_REGSHIFT (R215). -/
  | eorShiftReg (h : DpHead) (x : ShiftRegOperand)
  /-- Row 6: SUB (immediate operand), ARM DP_IMM (R216). -/
  | subImm (h : DpHead) (x : ImmOperand)
  /-- Row 7: SUB (register, shift by immediate), ARM DP_IMMSHIFT (R216). -/
  | subShiftImm (h : DpHead) (x : ShiftImmOperand)
  /-- Row 8: SUB (register, shift by register), ARM DP_REGSHIFT (R216). -/
  | subShiftReg (h : DpHead) (x : ShiftRegOperand)
  /-- Row 9: RSB (immediate operand), ARM DP_IMM (R217). -/
  | rsbImm (h : DpHead) (x : ImmOperand)
  /-- Row 10: RSB (register, shift by immediate), ARM DP_IMMSHIFT (R217). -/
  | rsbShiftImm (h : DpHead) (x : ShiftImmOperand)
  /-- Row 11: RSB (register, shift by register), ARM DP_REGSHIFT (R217). -/
  | rsbShiftReg (h : DpHead) (x : ShiftRegOperand)
  /-- Row 12: ADD (immediate operand), ARM DP_IMM (R218). -/
  | addImm (h : DpHead) (x : ImmOperand)
  /-- Row 13: ADD (register, shift by immediate), ARM DP_IMMSHIFT (R218). -/
  | addShiftImm (h : DpHead) (x : ShiftImmOperand)
  /-- Row 14: ADD (register, shift by register), ARM DP_REGSHIFT (R218). -/
  | addShiftReg (h : DpHead) (x : ShiftRegOperand)
  /-- Row 15: ADC (immediate operand), ARM DP_IMM (R219). -/
  | adcImm (h : DpHead) (x : ImmOperand)
  /-- Row 16: ADC (register, shift by immediate), ARM DP_IMMSHIFT (R219). -/
  | adcShiftImm (h : DpHead) (x : ShiftImmOperand)
  /-- Row 17: ADC (register, shift by register), ARM DP_REGSHIFT (R219). -/
  | adcShiftReg (h : DpHead) (x : ShiftRegOperand)
  /-- Row 18: SBC (immediate operand), ARM DP_IMM (R220). -/
  | sbcImm (h : DpHead) (x : ImmOperand)
  /-- Row 19: SBC (register, shift by immediate), ARM DP_IMMSHIFT (R220). -/
  | sbcShiftImm (h : DpHead) (x : ShiftImmOperand)
  /-- Row 20: SBC (register, shift by register), ARM DP_REGSHIFT (R220). -/
  | sbcShiftReg (h : DpHead) (x : ShiftRegOperand)
  /-- Row 21: RSC (immediate operand), ARM DP_IMM (R221). -/
  | rscImm (h : DpHead) (x : ImmOperand)
  /-- Row 22: RSC (register, shift by immediate), ARM DP_IMMSHIFT (R221). -/
  | rscShiftImm (h : DpHead) (x : ShiftImmOperand)
  /-- Row 23: RSC (register, shift by register), ARM DP_REGSHIFT (R221). -/
  | rscShiftReg (h : DpHead) (x : ShiftRegOperand)
  /-- Row 24: TST (immediate operand), ARM DP_IMM (R222). -/
  | tstImm (h : CmpHead) (x : ImmOperand)
  /-- Row 25: TST (register, shift by immediate), ARM DP_IMMSHIFT (R222). -/
  | tstShiftImm (h : CmpHead) (x : ShiftImmOperand)
  /-- Row 26: TST (register, shift by register), ARM DP_REGSHIFT (R222). -/
  | tstShiftReg (h : CmpHead) (x : ShiftRegOperand)
  /-- Row 27: TEQ (immediate operand), ARM DP_IMM (R223). -/
  | teqImm (h : CmpHead) (x : ImmOperand)
  /-- Row 28: TEQ (register, shift by immediate), ARM DP_IMMSHIFT (R223). -/
  | teqShiftImm (h : CmpHead) (x : ShiftImmOperand)
  /-- Row 29: TEQ (register, shift by register), ARM DP_REGSHIFT (R223). -/
  | teqShiftReg (h : CmpHead) (x : ShiftRegOperand)
  /-- Row 30: CMP (immediate operand), ARM DP_IMM (R224). -/
  | cmpImm (h : CmpHead) (x : ImmOperand)
  /-- Row 31: CMP (register, shift by immediate), ARM DP_IMMSHIFT (R224). -/
  | cmpShiftImm (h : CmpHead) (x : ShiftImmOperand)
  /-- Row 32: CMP (register, shift by register), ARM DP_REGSHIFT (R224). -/
  | cmpShiftReg (h : CmpHead) (x : ShiftRegOperand)
  /-- Row 33: CMN (immediate operand), ARM DP_IMM (R225). -/
  | cmnImm (h : CmpHead) (x : ImmOperand)
  /-- Row 34: CMN (register, shift by immediate), ARM DP_IMMSHIFT (R225). -/
  | cmnShiftImm (h : CmpHead) (x : ShiftImmOperand)
  /-- Row 35: CMN (register, shift by register), ARM DP_REGSHIFT (R225). -/
  | cmnShiftReg (h : CmpHead) (x : ShiftRegOperand)
  /-- Row 36: ORR (immediate operand), ARM DP_IMM (R226). -/
  | orrImm (h : DpHead) (x : ImmOperand)
  /-- Row 37: ORR (register, shift by immediate), ARM DP_IMMSHIFT (R226). -/
  | orrShiftImm (h : DpHead) (x : ShiftImmOperand)
  /-- Row 38: ORR (register, shift by register), ARM DP_REGSHIFT (R226). -/
  | orrShiftReg (h : DpHead) (x : ShiftRegOperand)
  /-- Row 39: MOV (immediate operand), ARM DP_IMM (R227). -/
  | movImm (h : DpHead) (x : ImmOperand)
  /-- Row 40: MOV (register, shift by immediate), ARM DP_IMMSHIFT (R227). -/
  | movShiftImm (h : DpHead) (x : ShiftImmOperand)
  /-- Row 41: MOV (register, shift by register), ARM DP_REGSHIFT (R227). -/
  | movShiftReg (h : DpHead) (x : ShiftRegOperand)
  /-- Row 42: BIC (immediate operand), ARM DP_IMM (R228). -/
  | bicImm (h : DpHead) (x : ImmOperand)
  /-- Row 43: BIC (register, shift by immediate), ARM DP_IMMSHIFT (R228). -/
  | bicShiftImm (h : DpHead) (x : ShiftImmOperand)
  /-- Row 44: BIC (register, shift by register), ARM DP_REGSHIFT (R228). -/
  | bicShiftReg (h : DpHead) (x : ShiftRegOperand)
  /-- Row 45: MVN (immediate operand), ARM DP_IMM (R229). -/
  | mvnImm (h : DpHead) (x : ImmOperand)
  /-- Row 46: MVN (register, shift by immediate), ARM DP_IMMSHIFT (R229). -/
  | mvnShiftImm (h : DpHead) (x : ShiftImmOperand)
  /-- Row 47: MVN (register, shift by register), ARM DP_REGSHIFT (R229). -/
  | mvnShiftReg (h : DpHead) (x : ShiftRegOperand)
  /-- Row 48: MUL, ARM MUL (R341). -/
  | mul (o : MulOps)
  /-- Row 49: MLA, ARM MUL (R342). -/
  | mla (o : MulOps)
  /-- Row 50: UMULL, ARM MULL (R343). -/
  | umull (o : MullOps)
  /-- Row 51: UMLAL, ARM MULL (R344). -/
  | umlal (o : MullOps)
  /-- Row 52: SMULL, ARM MULL (R345). -/
  | smull (o : MullOps)
  /-- Row 53: SMLAL, ARM MULL (R346). -/
  | smlal (o : MullOps)
  /-- Row 54: SWP, ARM SWP (R300). -/
  | swp (o : SwpOps)
  /-- Row 55: SWPB, ARM SWP (R301). -/
  | swpb (o : SwpOps)
  /-- Row 56: STRH (register offset), ARM HDT_REG (R263). -/
  | strhReg (o : HdtRegOps)
  /-- Row 57: STRH (immediate offset), ARM HDT_IMM (R263). -/
  | strhImm (o : HdtImmOps)
  /-- Row 58: LDRH (register offset), ARM HDT_REG (R262). -/
  | ldrhReg (o : HdtRegOps)
  /-- Row 59: LDRH (immediate offset), ARM HDT_IMM (R262). -/
  | ldrhImm (o : HdtImmOps)
  /-- Row 60: LDRSB (register offset), ARM HDT_REG (R265). -/
  | ldrsbReg (o : HdtRegOps)
  /-- Row 61: LDRSB (immediate offset), ARM HDT_IMM (R265). -/
  | ldrsbImm (o : HdtImmOps)
  /-- Row 62: LDRSH (register offset), ARM HDT_REG (R264). -/
  | ldrshReg (o : HdtRegOps)
  /-- Row 63: LDRSH (immediate offset), ARM HDT_IMM (R264). -/
  | ldrshImm (o : HdtImmOps)
  /-- Row 64: LDRD (register offset), ARM HDT_REG; core A9 (R266). -/
  | ldrdReg (o : HdtRegOps)
  /-- Row 65: LDRD (immediate offset), ARM HDT_IMM; core A9 (R266). -/
  | ldrdImm (o : HdtImmOps)
  /-- Row 66: STRD (register offset), ARM HDT_REG; core A9 (R266). -/
  | strdReg (o : HdtRegOps)
  /-- Row 67: STRD (immediate offset), ARM HDT_IMM; core A9 (R266). -/
  | strdImm (o : HdtImmOps)
  /-- Row 68: unknown instruction: LDRD / STRD encodings on core A7, ARM HDT_REG / HDT_IMM; core A7 (R390). -/
  | unkDoubleA7 (word : Word)
  /-- Row 69: MRS, ARM MRS (R325). -/
  | mrs (o : MrsOps)
  /-- Row 70: MSR CPSR_<fields>, Rm, ARM MSR_REG (R328). -/
  | msrCpsrReg (o : MsrRegOps)
  /-- Row 71: MSR SPSR_<fields>, Rm, ARM MSR_REG (R329). -/
  | msrSpsrReg (o : MsrRegOps)
  /-- Row 72: MSR CPSR_<fields>, #imm, ARM MSR_IMM (R328). -/
  | msrCpsrImm (o : MsrImmOps)
  /-- Row 73: MSR SPSR_<fields>, #imm, ARM MSR_IMM (R329). -/
  | msrSpsrImm (o : MsrImmOps)
  /-- Row 74: BX, ARM BX (R312). -/
  | bx (o : BxOps)
  /-- Row 75: BLX Rm, ARM BLX_REG; core A9 (R313). -/
  | blxReg (o : BxOps)
  /-- Row 76: BKPT, ARM UNK_MISC_B (R391). -/
  | bkpt (o : BkptOps)
  /-- Row 77: CLZ, ARM CLZ; core A9 (R350). -/
  | clz (o : ClzOps)
  /-- Row 78: QADD, ARM QADDSUB; core A9 (R352). -/
  | qadd (o : QOps)
  /-- Row 79: QSUB, ARM QADDSUB; core A9 (R353). -/
  | qsub (o : QOps)
  /-- Row 80: QDADD, ARM QADDSUB; core A9 (R354). -/
  | qdadd (o : QOps)
  /-- Row 81: QDSUB, ARM QADDSUB; core A9 (R355). -/
  | qdsub (o : QOps)
  /-- Row 82: SMLAxy, ARM SMULXY; core A9 (R362). -/
  | smlaXy (o : SmulOps)
  /-- Row 83: SMLAWy, ARM SMULXY; core A9 (R364). -/
  | smlawY (o : SmulwOps)
  /-- Row 84: SMULWy, ARM SMULXY; core A9 (R363). -/
  | smulwY (o : SmulwOps)
  /-- Row 85: SMLALxy, ARM SMULXY; core A9 (R365). -/
  | smlalXy (o : SmlalOps)
  /-- Row 86: SMULxy, ARM SMULXY; core A9 (R361). -/
  | smulXy (o : SmulOps)
  /-- Row 87: STR (immediate offset), ARM SDT_IMM (R254). -/
  | strImm (o : SdtImmOps)
  /-- Row 88: STR (register offset), ARM SDT_REG (R254). -/
  | strReg (o : SdtRegOps)
  /-- Row 89: LDR (immediate offset), ARM SDT_IMM (R252). -/
  | ldrImm (o : SdtImmOps)
  /-- Row 90: LDR (register offset), ARM SDT_REG (R252). -/
  | ldrReg (o : SdtRegOps)
  /-- Row 91: STRB (immediate offset), ARM SDT_IMM (R256). -/
  | strbImm (o : SdtImmOps)
  /-- Row 92: STRB (register offset), ARM SDT_REG (R256). -/
  | strbReg (o : SdtRegOps)
  /-- Row 93: LDRB (immediate offset), ARM SDT_IMM (R255). -/
  | ldrbImm (o : SdtImmOps)
  /-- Row 94: LDRB (register offset), ARM SDT_REG (R255). -/
  | ldrbReg (o : SdtRegOps)
  /-- Row 95: STRT (immediate offset), ARM SDT_IMM (R257). -/
  | strtImm (o : SdtTImmOps)
  /-- Row 96: STRT (register offset), ARM SDT_REG (R257). -/
  | strtReg (o : SdtTRegOps)
  /-- Row 97: LDRT (immediate offset), ARM SDT_IMM (R257). -/
  | ldrtImm (o : SdtTImmOps)
  /-- Row 98: LDRT (register offset), ARM SDT_REG (R257). -/
  | ldrtReg (o : SdtTRegOps)
  /-- Row 99: STRBT (immediate offset), ARM SDT_IMM (R257). -/
  | strbtImm (o : SdtTImmOps)
  /-- Row 100: STRBT (register offset), ARM SDT_REG (R257). -/
  | strbtReg (o : SdtTRegOps)
  /-- Row 101: LDRBT (immediate offset), ARM SDT_IMM (R257). -/
  | ldrbtImm (o : SdtTImmOps)
  /-- Row 102: LDRBT (register offset), ARM SDT_REG (R257). -/
  | ldrbtReg (o : SdtTRegOps)
  /-- Row 103: STM, ARM BDT (R293). -/
  | stm (o : BdtOps)
  /-- Row 104: LDM, ARM BDT (R292). -/
  | ldm (o : BdtOps)
  /-- Row 105: B, ARM B_BL (R310). -/
  | b (o : BranchOps)
  /-- Row 106: BL, ARM B_BL (R311). -/
  | bl (o : BranchOps)
  /-- Row 107: BLX label, ARM BLX_IMM; core A9 (R314). -/
  | blxLabel (o : BlxLabelOps)
  /-- Row 108: PLD, ARM PLD; core A9 (R268). -/
  | pld (o : PldOps)
  /-- Row 109: MRC p15, 0, ARM MRC_MCR; core A9 (R385). -/
  | mrc (o : CoprocOps)
  /-- Row 110: MCR p15, 0, ARM MRC_MCR; core A9 (R386). -/
  | mcr (o : CoprocOps)
  /-- Row 111: MRC / MCR, any other coprocessor or opcode1, ARM MRC_MCR (R384). -/
  | coprocOther (o : CoprocOtherOps)
  /-- Row 112: SWI, ARM SWI (R380). -/
  | swi (o : SwiOps)
  /-- Row 113: unknown instruction, ARM UNK_MISC_A (R390). -/
  | unkMiscA (word : Word)
  /-- Row 114: unknown instruction, ARM UNK_MISC_B (R390). -/
  | unkMiscB (word : Word)
  /-- Row 115: unknown instruction, ARM UNK_IMM (R390). -/
  | unkImm (word : Word)
  /-- Row 116: unknown instruction, ARM UNK_1001 (R390). -/
  | unk1001 (word : Word)
  /-- Row 117: unknown instruction, ARM UNK_MEDIA (R390). -/
  | unkMedia (word : Word)
  /-- Row 118: unknown instruction, ARM UNK_LDC_STC (R390). -/
  | unkLdcStc (word : Word)
  /-- Row 119: unknown instruction, ARM UNK_CDP (R390). -/
  | unkCdp (word : Word)
  /-- Row 120: LSL Rd, Rs, #imm5, THUMB format 1 (R401). -/
  | tLslImm (o : TShiftOps)
  /-- Row 121: LSR Rd, Rs, #imm5, THUMB format 1 (R402). -/
  | tLsrImm (o : TShiftOps)
  /-- Row 122: ASR Rd, Rs, #imm5, THUMB format 1 (R403). -/
  | tAsrImm (o : TShiftOps)
  /-- Row 123: ADD Rd, Rs, Rn, THUMB format 2 (R404). -/
  | tAddReg (o : TAddRegOps)
  /-- Row 124: SUB Rd, Rs, Rn, THUMB format 2 (R405). -/
  | tSubReg (o : TAddRegOps)
  /-- Row 125: ADD Rd, Rs, #imm3, THUMB format 2 (R406). -/
  | tAddImm3 (o : TAddImmOps)
  /-- Row 126: SUB Rd, Rs, #imm3, THUMB format 2 (R407). -/
  | tSubImm3 (o : TAddImmOps)
  /-- Row 127: MOV Rd, #imm8, THUMB format 3 (R408). -/
  | tMovImm8 (o : TImm8Ops)
  /-- Row 128: CMP Rd, #imm8, THUMB format 3 (R409). -/
  | tCmpImm8 (o : TImm8Ops)
  /-- Row 129: ADD Rd, #imm8, THUMB format 3 (R410). -/
  | tAddImm8 (o : TImm8Ops)
  /-- Row 130: SUB Rd, #imm8, THUMB format 3 (R411). -/
  | tSubImm8 (o : TImm8Ops)
  /-- Row 131: AND Rd, Rs, THUMB format 4 (R412). -/
  | tAnd (o : TAluOps)
  /-- Row 132: EOR Rd, Rs, THUMB format 4 (R413). -/
  | tEor (o : TAluOps)
  /-- Row 133: LSL Rd, Rs, THUMB format 4 (R414). -/
  | tLslReg (o : TAluOps)
  /-- Row 134: LSR Rd, Rs, THUMB format 4 (R415). -/
  | tLsrReg (o : TAluOps)
  /-- Row 135: ASR Rd, Rs, THUMB format 4 (R416). -/
  | tAsrReg (o : TAluOps)
  /-- Row 136: ADC Rd, Rs, THUMB format 4 (R417). -/
  | tAdc (o : TAluOps)
  /-- Row 137: SBC Rd, Rs, THUMB format 4 (R418). -/
  | tSbc (o : TAluOps)
  /-- Row 138: ROR Rd, Rs, THUMB format 4 (R420). -/
  | tRorReg (o : TAluOps)
  /-- Row 139: TST Rd, Rs, THUMB format 4 (R421). -/
  | tTst (o : TAluOps)
  /-- Row 140: NEG Rd, Rs, THUMB format 4 (R419). -/
  | tNeg (o : TAluOps)
  /-- Row 141: CMP Rd, Rs, THUMB format 4 (R422). -/
  | tCmpReg (o : TAluOps)
  /-- Row 142: CMN Rd, Rs, THUMB format 4 (R423). -/
  | tCmn (o : TAluOps)
  /-- Row 143: ORR Rd, Rs, THUMB format 4 (R424). -/
  | tOrr (o : TAluOps)
  /-- Row 144: MUL Rd, Rs, THUMB format 4 (R425). -/
  | tMul (o : TAluOps)
  /-- Row 145: BIC Rd, Rs, THUMB format 4 (R426). -/
  | tBic (o : TAluOps)
  /-- Row 146: MVN Rd, Rs, THUMB format 4 (R427). -/
  | tMvn (o : TAluOps)
  /-- Row 147: ADD Rd, Rs (high registers), THUMB format 5 (R430). -/
  | tAddHi (o : THiOps)
  /-- Row 148: CMP Rd, Rs (high registers), THUMB format 5 (R431). -/
  | tCmpHi (o : THiOps)
  /-- Row 149: MOV Rd, Rs (high registers), THUMB format 5 (R432). -/
  | tMovHi (o : THiOps)
  /-- Row 150: BX Rs, THUMB format 5 (R433). -/
  | tBx (o : TBxOps)
  /-- Row 151: BLX Rs, THUMB format 5; core A9 (R434). -/
  | tBlxReg (o : TBxOps)
  /-- Row 152: BX Rs (H1 = 1 on core A7), THUMB format 5; core A7 (R433). -/
  | tBxH1 (o : TBxOps)
  /-- Row 153: LDR Rd, [PC, #imm8*4], THUMB format 6 (R435). -/
  | tLdrPc (o : TImm8Ops)
  /-- Row 154: STR Rd, [Rb, Ro], THUMB format 7 (R436). -/
  | tStrReg (o : TRegOffOps)
  /-- Row 155: STRB Rd, [Rb, Ro], THUMB format 7 (R437). -/
  | tStrbReg (o : TRegOffOps)
  /-- Row 156: LDR Rd, [Rb, Ro], THUMB format 7 (R438). -/
  | tLdrReg (o : TRegOffOps)
  /-- Row 157: LDRB Rd, [Rb, Ro], THUMB format 7 (R439). -/
  | tLdrbReg (o : TRegOffOps)
  /-- Row 158: STRH Rd, [Rb, Ro], THUMB format 8 (R440). -/
  | tStrhReg (o : TRegOffOps)
  /-- Row 159: LDSB Rd, [Rb, Ro], THUMB format 8 (R441). -/
  | tLdsbReg (o : TRegOffOps)
  /-- Row 160: LDRH Rd, [Rb, Ro], THUMB format 8 (R442). -/
  | tLdrhReg (o : TRegOffOps)
  /-- Row 161: LDSH Rd, [Rb, Ro], THUMB format 8 (R443). -/
  | tLdshReg (o : TRegOffOps)
  /-- Row 162: STR Rd, [Rb, #imm5*4], THUMB format 9 (R450). -/
  | tStrImm (o : TImmOffOps)
  /-- Row 163: LDR Rd, [Rb, #imm5*4], THUMB format 9 (R451). -/
  | tLdrImm (o : TImmOffOps)
  /-- Row 164: STRB Rd, [Rb, #imm5], THUMB format 9 (R452). -/
  | tStrbImm (o : TImmOffOps)
  /-- Row 165: LDRB Rd, [Rb, #imm5], THUMB format 9 (R453). -/
  | tLdrbImm (o : TImmOffOps)
  /-- Row 166: STRH Rd, [Rb, #imm5*2], THUMB format 10 (R454). -/
  | tStrhImm (o : TImmOffOps)
  /-- Row 167: LDRH Rd, [Rb, #imm5*2], THUMB format 10 (R455). -/
  | tLdrhImm (o : TImmOffOps)
  /-- Row 168: STR Rd, [SP, #imm8*4], THUMB format 11 (R456). -/
  | tStrSp (o : TImm8Ops)
  /-- Row 169: LDR Rd, [SP, #imm8*4], THUMB format 11 (R457). -/
  | tLdrSp (o : TImm8Ops)
  /-- Row 170: ADD Rd, PC, #imm8*4, THUMB format 12 (R458). -/
  | tAddPc (o : TImm8Ops)
  /-- Row 171: ADD Rd, SP, #imm8*4, THUMB format 12 (R459). -/
  | tAddSp (o : TImm8Ops)
  /-- Row 172: ADD SP, #imm7*4, THUMB format 13 (R460). -/
  | tIncSp (o : TAdjOps)
  /-- Row 173: SUB SP, #imm7*4, THUMB format 13 (R461). -/
  | tDecSp (o : TAdjOps)
  /-- Row 174: PUSH (rlist, LR), THUMB format 14 (R462). -/
  | tPush (o : TPushPopOps)
  /-- Row 175: POP (rlist, PC), THUMB format 14 (R463). -/
  | tPop (o : TPushPopOps)
  /-- Row 176: BKPT, THUMB T_UNK_1011 (R391). -/
  | tBkpt (o : TCommentOps)
  /-- Row 177: unknown instruction, THUMB T_UNK_1011 (R390). -/
  | tUnk1011 (half : Half)
  /-- Row 178: STMIA Rb!, (rlist), THUMB format 15 (R464). -/
  | tStmia (o : TBlockOps)
  /-- Row 179: LDMIA Rb!, (rlist), THUMB format 15 (R465). -/
  | tLdmia (o : TBlockOps)
  /-- Row 180: B<cond> label, THUMB format 16 (R470). -/
  | tBcond (o : TCondOps)
  /-- Row 181: unknown instruction, THUMB T_UNK_DE (R390). -/
  | tUnkDe (half : Half)
  /-- Row 182: SWI imm8, THUMB format 17 (R472). -/
  | tSwi (o : TCommentOps)
  /-- Row 183: B label, THUMB format 18 (R474). -/
  | tB (o : TBranchOps)
  /-- Row 184: BL / BLX first half, THUMB format 19 (R480). -/
  | tBlPrefix (o : TBranchOps)
  /-- Row 185: BL second half, THUMB format 19 (R481). -/
  | tBlSuffix (o : TBranchOps)
  /-- Row 186: BLX second half, THUMB format 19; core A9 (R482). -/
  | tBlxSuffix (o : TBranchOps)
  /-- Row 187: unknown instruction, THUMB T_UNK_11101; core A7 (R390). -/
  | tUnk11101 (half : Half)
deriving DecidableEq, Repr

/-- An instruction as it lies in memory (R130): one 32-bit word in ARM mode, one 16-bit half-word in Thumb mode. -/
inductive Code where
  | arm (w : Word)
  | thumb (h : Half)
deriving DecidableEq, Repr

end Sys2Proof
end

