-- ==== Sys2Proof/Decode.lean ====
section
/-! DEFINITION. Decoding and encoding (spec/30_encoding.md). `decode` is total: every word and every half-word is an
instruction of some row, the rows of unknown instructions included (R133). `encode` is written from the format tables of
R138 to R152; the two are inverse to each other (Certificates/Slice0/Obligations.lean states it). -/

namespace Sys2Proof

/-- The `type` field read from its two bits (R138). -/
def ShiftType.ofBits (b : BitVec 2) : ShiftType :=
  match b.toNat with
  | 0 => .lsl
  | 1 => .lsr
  | 2 => .asr
  | _ => .ror

/-- The two bits of the `type` field (R138). -/
def ShiftType.bits : ShiftType → BitVec 2
  | .lsl => 0
  | .lsr => 1
  | .asr => 2
  | .ror => 3

/-- The fields of `DpHead` at their places. -/
def DpHead.of (w : Word) : DpHead :=
  { cond := w.extractLsb' 28 4, s := w.extractLsb' 20 1, rn := w.extractLsb' 16 4, rd := w.extractLsb' 12 4 }

/-- The fields of `CmpHead` at their places. -/
def CmpHead.of (w : Word) : CmpHead :=
  { cond := w.extractLsb' 28 4, rn := w.extractLsb' 16 4, rd := w.extractLsb' 12 4 }

/-- The fields of `ImmOperand` at their places. -/
def ImmOperand.of (w : Word) : ImmOperand :=
  { rotate := w.extractLsb' 8 4, imm8 := w.extractLsb' 0 8 }

/-- The fields of `ShiftImmOperand` at their places. -/
def ShiftImmOperand.of (w : Word) : ShiftImmOperand :=
  { amount := w.extractLsb' 7 5, type := .ofBits (w.extractLsb' 5 2), rm := w.extractLsb' 0 4 }

/-- The fields of `ShiftRegOperand` at their places. -/
def ShiftRegOperand.of (w : Word) : ShiftRegOperand :=
  { rs := w.extractLsb' 8 4, type := .ofBits (w.extractLsb' 5 2), rm := w.extractLsb' 0 4 }

/-- The fields of `MulOps` at their places. -/
def MulOps.of (w : Word) : MulOps :=
  { cond := w.extractLsb' 28 4, s := w.extractLsb' 20 1, rd := w.extractLsb' 16 4, rn := w.extractLsb' 12 4,
    rs := w.extractLsb' 8 4, rm := w.extractLsb' 0 4 }

/-- The fields of `MullOps` at their places. -/
def MullOps.of (w : Word) : MullOps :=
  { cond := w.extractLsb' 28 4, s := w.extractLsb' 20 1, rdHi := w.extractLsb' 16 4,
    rdLo := w.extractLsb' 12 4, rs := w.extractLsb' 8 4, rm := w.extractLsb' 0 4 }

/-- The fields of `SwpOps` at their places. -/
def SwpOps.of (w : Word) : SwpOps :=
  { cond := w.extractLsb' 28 4, rn := w.extractLsb' 16 4, rd := w.extractLsb' 12 4, sbz := w.extractLsb' 8 4,
    rm := w.extractLsb' 0 4 }

/-- The fields of `HdtRegOps` at their places. -/
def HdtRegOps.of (w : Word) : HdtRegOps :=
  { cond := w.extractLsb' 28 4, p := w.extractLsb' 24 1, u := w.extractLsb' 23 1, w := w.extractLsb' 21 1,
    rn := w.extractLsb' 16 4, rd := w.extractLsb' 12 4, sbz := w.extractLsb' 8 4, rm := w.extractLsb' 0 4 }

/-- The fields of `HdtImmOps` at their places. -/
def HdtImmOps.of (w : Word) : HdtImmOps :=
  { cond := w.extractLsb' 28 4, p := w.extractLsb' 24 1, u := w.extractLsb' 23 1, w := w.extractLsb' 21 1,
    rn := w.extractLsb' 16 4, rd := w.extractLsb' 12 4, immHi := w.extractLsb' 8 4, immLo := w.extractLsb' 0 4 }

/-- The fields of `MrsOps` at their places. -/
def MrsOps.of (w : Word) : MrsOps :=
  { cond := w.extractLsb' 28 4, r := w.extractLsb' 22 1, sbo := w.extractLsb' 16 4, rd := w.extractLsb' 12 4,
    sbz := w.extractLsb' 8 4, sbz2 := w.extractLsb' 0 4 }

/-- The fields of `MsrRegOps` at their places. -/
def MsrRegOps.of (w : Word) : MsrRegOps :=
  { cond := w.extractLsb' 28 4, mask := w.extractLsb' 16 4, sbo := w.extractLsb' 12 4,
    sbz := w.extractLsb' 8 4, rm := w.extractLsb' 0 4 }

/-- The fields of `MsrImmOps` at their places. -/
def MsrImmOps.of (w : Word) : MsrImmOps :=
  { cond := w.extractLsb' 28 4, mask := w.extractLsb' 16 4, sbo := w.extractLsb' 12 4,
    rotate := w.extractLsb' 8 4, imm8 := w.extractLsb' 0 8 }

/-- The fields of `BxOps` at their places. -/
def BxOps.of (w : Word) : BxOps :=
  { cond := w.extractLsb' 28 4, sbo := w.extractLsb' 8 12, rm := w.extractLsb' 0 4 }

/-- The fields of `BkptOps` at their places. -/
def BkptOps.of (w : Word) : BkptOps :=
  { cond := w.extractLsb' 28 4, imm12 := w.extractLsb' 8 12, imm4 := w.extractLsb' 0 4 }

/-- The fields of `ClzOps` at their places. -/
def ClzOps.of (w : Word) : ClzOps :=
  { cond := w.extractLsb' 28 4, sbo := w.extractLsb' 16 4, rd := w.extractLsb' 12 4, sbo2 := w.extractLsb' 8 4,
    rm := w.extractLsb' 0 4 }

/-- The fields of `QOps` at their places. -/
def QOps.of (w : Word) : QOps :=
  { cond := w.extractLsb' 28 4, rn := w.extractLsb' 16 4, rd := w.extractLsb' 12 4, sbz := w.extractLsb' 8 4,
    rm := w.extractLsb' 0 4 }

/-- The fields of `SmulOps` at their places. -/
def SmulOps.of (w : Word) : SmulOps :=
  { cond := w.extractLsb' 28 4, rd := w.extractLsb' 16 4, rn := w.extractLsb' 12 4, rs := w.extractLsb' 8 4,
    y := w.extractLsb' 6 1, x := w.extractLsb' 5 1, rm := w.extractLsb' 0 4 }

/-- The fields of `SmlalOps` at their places. -/
def SmlalOps.of (w : Word) : SmlalOps :=
  { cond := w.extractLsb' 28 4, rdHi := w.extractLsb' 16 4, rdLo := w.extractLsb' 12 4,
    rs := w.extractLsb' 8 4, y := w.extractLsb' 6 1, x := w.extractLsb' 5 1, rm := w.extractLsb' 0 4 }

/-- The fields of `SmulwOps` at their places. -/
def SmulwOps.of (w : Word) : SmulwOps :=
  { cond := w.extractLsb' 28 4, rd := w.extractLsb' 16 4, rn := w.extractLsb' 12 4, rs := w.extractLsb' 8 4,
    y := w.extractLsb' 6 1, rm := w.extractLsb' 0 4 }

/-- The fields of `SdtImmOps` at their places. -/
def SdtImmOps.of (w : Word) : SdtImmOps :=
  { cond := w.extractLsb' 28 4, p := w.extractLsb' 24 1, u := w.extractLsb' 23 1, w := w.extractLsb' 21 1,
    rn := w.extractLsb' 16 4, rd := w.extractLsb' 12 4, offset := w.extractLsb' 0 12 }

/-- The fields of `SdtRegOps` at their places. -/
def SdtRegOps.of (w : Word) : SdtRegOps :=
  { cond := w.extractLsb' 28 4, p := w.extractLsb' 24 1, u := w.extractLsb' 23 1, w := w.extractLsb' 21 1,
    rn := w.extractLsb' 16 4, rd := w.extractLsb' 12 4, amount := w.extractLsb' 7 5,
    type := .ofBits (w.extractLsb' 5 2), rm := w.extractLsb' 0 4 }

/-- The fields of `SdtTImmOps` at their places. -/
def SdtTImmOps.of (w : Word) : SdtTImmOps :=
  { cond := w.extractLsb' 28 4, u := w.extractLsb' 23 1, rn := w.extractLsb' 16 4, rd := w.extractLsb' 12 4,
    offset := w.extractLsb' 0 12 }

/-- The fields of `SdtTRegOps` at their places. -/
def SdtTRegOps.of (w : Word) : SdtTRegOps :=
  { cond := w.extractLsb' 28 4, u := w.extractLsb' 23 1, rn := w.extractLsb' 16 4, rd := w.extractLsb' 12 4,
    amount := w.extractLsb' 7 5, type := .ofBits (w.extractLsb' 5 2), rm := w.extractLsb' 0 4 }

/-- The fields of `BdtOps` at their places. -/
def BdtOps.of (w : Word) : BdtOps :=
  { cond := w.extractLsb' 28 4, p := w.extractLsb' 24 1, u := w.extractLsb' 23 1, s := w.extractLsb' 22 1,
    w := w.extractLsb' 21 1, rn := w.extractLsb' 16 4, list := w.extractLsb' 0 16 }

/-- The fields of `BranchOps` at their places. -/
def BranchOps.of (w : Word) : BranchOps :=
  { cond := w.extractLsb' 28 4, imm24 := w.extractLsb' 0 24 }

/-- The fields of `BlxLabelOps` at their places. -/
def BlxLabelOps.of (w : Word) : BlxLabelOps :=
  { h := w.extractLsb' 24 1, imm24 := w.extractLsb' 0 24 }

/-- The fields of `PldOps` at their places. -/
def PldOps.of (w : Word) : PldOps :=
  { i := w.extractLsb' 25 1, u := w.extractLsb' 23 1, rn := w.extractLsb' 16 4, sbo := w.extractLsb' 12 4,
    offset := w.extractLsb' 0 12 }

/-- The fields of `CoprocOps` at their places. -/
def CoprocOps.of (w : Word) : CoprocOps :=
  { cond := w.extractLsb' 28 4, crn := w.extractLsb' 16 4, rd := w.extractLsb' 12 4, op2 := w.extractLsb' 5 3,
    crm := w.extractLsb' 0 4 }

/-- The fields of `CoprocOtherOps` at their places. -/
def CoprocOtherOps.of (w : Word) : CoprocOtherOps :=
  { cond := w.extractLsb' 28 4, op1 := w.extractLsb' 21 3, l := w.extractLsb' 20 1, crn := w.extractLsb' 16 4,
    rd := w.extractLsb' 12 4, cp := w.extractLsb' 8 4, op2 := w.extractLsb' 5 3, crm := w.extractLsb' 0 4 }

/-- The fields of `SwiOps` at their places. -/
def SwiOps.of (w : Word) : SwiOps :=
  { cond := w.extractLsb' 28 4, comment := w.extractLsb' 0 24 }

/-- The fields of `TShiftOps` at their places. -/
def TShiftOps.of (h : Half) : TShiftOps :=
  { imm5 := h.extractLsb' 6 5, rs := h.extractLsb' 3 3, rd := h.extractLsb' 0 3 }

/-- The fields of `TAddRegOps` at their places. -/
def TAddRegOps.of (h : Half) : TAddRegOps :=
  { rn := h.extractLsb' 6 3, rs := h.extractLsb' 3 3, rd := h.extractLsb' 0 3 }

/-- The fields of `TAddImmOps` at their places. -/
def TAddImmOps.of (h : Half) : TAddImmOps :=
  { imm3 := h.extractLsb' 6 3, rs := h.extractLsb' 3 3, rd := h.extractLsb' 0 3 }

/-- The fields of `TImm8Ops` at their places. -/
def TImm8Ops.of (h : Half) : TImm8Ops :=
  { rd := h.extractLsb' 8 3, imm8 := h.extractLsb' 0 8 }

/-- The fields of `TAluOps` at their places. -/
def TAluOps.of (h : Half) : TAluOps :=
  { rs := h.extractLsb' 3 3, rd := h.extractLsb' 0 3 }

/-- The fields of `THiOps` at their places. -/
def THiOps.of (h : Half) : THiOps :=
  { h1 := h.extractLsb' 7 1, h2 := h.extractLsb' 6 1, rsLow := h.extractLsb' 3 3, rdLow := h.extractLsb' 0 3 }

/-- The fields of `TBxOps` at their places. -/
def TBxOps.of (h : Half) : TBxOps :=
  { h2 := h.extractLsb' 6 1, rsLow := h.extractLsb' 3 3, sbz := h.extractLsb' 0 3 }

/-- The fields of `TRegOffOps` at their places. -/
def TRegOffOps.of (h : Half) : TRegOffOps :=
  { ro := h.extractLsb' 6 3, rb := h.extractLsb' 3 3, rd := h.extractLsb' 0 3 }

/-- The fields of `TImmOffOps` at their places. -/
def TImmOffOps.of (h : Half) : TImmOffOps :=
  { imm5 := h.extractLsb' 6 5, rb := h.extractLsb' 3 3, rd := h.extractLsb' 0 3 }

/-- The fields of `TAdjOps` at their places. -/
def TAdjOps.of (h : Half) : TAdjOps :=
  { imm7 := h.extractLsb' 0 7 }

/-- The fields of `TPushPopOps` at their places. -/
def TPushPopOps.of (h : Half) : TPushPopOps :=
  { r := h.extractLsb' 8 1, rlist := h.extractLsb' 0 8 }

/-- The fields of `TBlockOps` at their places. -/
def TBlockOps.of (h : Half) : TBlockOps :=
  { rb := h.extractLsb' 8 3, rlist := h.extractLsb' 0 8 }

/-- The fields of `TCondOps` at their places. -/
def TCondOps.of (h : Half) : TCondOps :=
  { cond := h.extractLsb' 8 4, soffset := h.extractLsb' 0 8 }

/-- The fields of `TCommentOps` at their places. -/
def TCommentOps.of (h : Half) : TCommentOps :=
  { comment := h.extractLsb' 0 8 }

/-- The fields of `TBranchOps` at their places. -/
def TBranchOps.of (h : Half) : TBranchOps :=
  { offset := h.extractLsb' 0 11 }

/-- Class `DP_IMM`: the opcode field, bits 24:21, names the row (R138). -/
def decodeDpImm (w : Word) : Instr :=
  match (w.extractLsb' 21 4).toNat with
  | 0 => .andImm (.of w) (.of w)
  | 1 => .eorImm (.of w) (.of w)
  | 2 => .subImm (.of w) (.of w)
  | 3 => .rsbImm (.of w) (.of w)
  | 4 => .addImm (.of w) (.of w)
  | 5 => .adcImm (.of w) (.of w)
  | 6 => .sbcImm (.of w) (.of w)
  | 7 => .rscImm (.of w) (.of w)
  | 8 => .tstImm (.of w) (.of w)
  | 9 => .teqImm (.of w) (.of w)
  | 10 => .cmpImm (.of w) (.of w)
  | 11 => .cmnImm (.of w) (.of w)
  | 12 => .orrImm (.of w) (.of w)
  | 13 => .movImm (.of w) (.of w)
  | 14 => .bicImm (.of w) (.of w)
  | _ => .mvnImm (.of w) (.of w)

/-- Class `DP_IMMSHIFT`: the opcode field, bits 24:21, names the row (R138). -/
def decodeDpShiftImm (w : Word) : Instr :=
  match (w.extractLsb' 21 4).toNat with
  | 0 => .andShiftImm (.of w) (.of w)
  | 1 => .eorShiftImm (.of w) (.of w)
  | 2 => .subShiftImm (.of w) (.of w)
  | 3 => .rsbShiftImm (.of w) (.of w)
  | 4 => .addShiftImm (.of w) (.of w)
  | 5 => .adcShiftImm (.of w) (.of w)
  | 6 => .sbcShiftImm (.of w) (.of w)
  | 7 => .rscShiftImm (.of w) (.of w)
  | 8 => .tstShiftImm (.of w) (.of w)
  | 9 => .teqShiftImm (.of w) (.of w)
  | 10 => .cmpShiftImm (.of w) (.of w)
  | 11 => .cmnShiftImm (.of w) (.of w)
  | 12 => .orrShiftImm (.of w) (.of w)
  | 13 => .movShiftImm (.of w) (.of w)
  | 14 => .bicShiftImm (.of w) (.of w)
  | _ => .mvnShiftImm (.of w) (.of w)

/-- Class `DP_REGSHIFT`: the opcode field, bits 24:21, names the row (R138). -/
def decodeDpShiftReg (w : Word) : Instr :=
  match (w.extractLsb' 21 4).toNat with
  | 0 => .andShiftReg (.of w) (.of w)
  | 1 => .eorShiftReg (.of w) (.of w)
  | 2 => .subShiftReg (.of w) (.of w)
  | 3 => .rsbShiftReg (.of w) (.of w)
  | 4 => .addShiftReg (.of w) (.of w)
  | 5 => .adcShiftReg (.of w) (.of w)
  | 6 => .sbcShiftReg (.of w) (.of w)
  | 7 => .rscShiftReg (.of w) (.of w)
  | 8 => .tstShiftReg (.of w) (.of w)
  | 9 => .teqShiftReg (.of w) (.of w)
  | 10 => .cmpShiftReg (.of w) (.of w)
  | 11 => .cmnShiftReg (.of w) (.of w)
  | 12 => .orrShiftReg (.of w) (.of w)
  | 13 => .movShiftReg (.of w) (.of w)
  | 14 => .bicShiftReg (.of w) (.of w)
  | _ => .mvnShiftReg (.of w) (.of w)

/-- Words with bits 27:25 = 000 and bits 7:4 = 1001 (R137): `MUL`, `MULL`, `SWP`, or unknown. -/
def decodeMultiply (w : Word) : Instr :=
  if w.extractLsb' 22 6 = 0 then if w.extractLsb' 21 1 = 0 then .mul (.of w) else .mla (.of w)
  else if w.extractLsb' 23 5 = 1 then
    match (w.extractLsb' 21 2).toNat with
    | 0 => .umull (.of w)
    | 1 => .umlal (.of w)
    | 2 => .smull (.of w)
    | _ => .smlal (.of w)
  else if w.extractLsb' 23 5 = 2 ∧ w.extractLsb' 20 2 = 0 then if w.extractLsb' 22 1 = 0 then .swp (.of w) else .swpb (.of w)
  else .unk1001 w

/-- Classes `HDT_REG` and `HDT_IMM` (R141): L and S:H name the row, bit 22 the offset form. LDRD and STRD exist on core A9
only; on A7 their words are unknown. -/
def decodeHdt (c : CoreId) (w : Word) : Instr :=
  if w.extractLsb' 20 1 = 0 then
    match (w.extractLsb' 5 2).toNat with
    | 2 =>
      if c = .a7 then .unkDoubleA7 w
      else if w.extractLsb' 22 1 = 0 then .ldrdReg (.of w) else .ldrdImm (.of w)
    | 3 =>
      if c = .a7 then .unkDoubleA7 w
      else if w.extractLsb' 22 1 = 0 then .strdReg (.of w) else .strdImm (.of w)
    | _ => if w.extractLsb' 22 1 = 0 then .strhReg (.of w) else .strhImm (.of w)
  else
    match (w.extractLsb' 5 2).toNat with
    | 2 => if w.extractLsb' 22 1 = 0 then .ldrsbReg (.of w) else .ldrsbImm (.of w)
    | 3 => if w.extractLsb' 22 1 = 0 then .ldrshReg (.of w) else .ldrshImm (.of w)
    | _ => if w.extractLsb' 22 1 = 0 then .ldrhReg (.of w) else .ldrhImm (.of w)

/-- The miscellaneous space (R137): bits 27:23 = 00010, bit 20 = 0, not a multiply and not a halfword transfer. -/
def decodeMisc (c : CoreId) (w : Word) : Instr :=
  if w.extractLsb' 4 4 = 0 then
    if w.extractLsb' 21 1 = 0 then .mrs (.of w)
    else if w.extractLsb' 22 1 = 0 then .msrCpsrReg (.of w) else .msrSpsrReg (.of w)
  else if w.extractLsb' 21 2 = 1 ∧ w.extractLsb' 4 4 = 1 then .bx (.of w)
  else if c = .a9 ∧ w.extractLsb' 21 2 = 1 ∧ w.extractLsb' 4 4 = 3 then .blxReg (.of w)
  else if c = .a9 ∧ w.extractLsb' 21 2 = 3 ∧ w.extractLsb' 4 4 = 1 then .clz (.of w)
  else if c = .a9 ∧ w.extractLsb' 4 4 = 5 then
    match (w.extractLsb' 21 2).toNat with
    | 0 => .qadd (.of w)
    | 1 => .qsub (.of w)
    | 2 => .qdadd (.of w)
    | _ => .qdsub (.of w)
  else if c = .a9 ∧ w.extractLsb' 7 1 = 1 ∧ w.extractLsb' 4 1 = 0 then
    match (w.extractLsb' 21 2).toNat with
    | 0 => .smlaXy (.of w)
    | 1 => if w.extractLsb' 5 1 = 0 then .smlawY (.of w) else .smulwY (.of w)
    | 2 => .smlalXy (.of w)
    | _ => .smulXy (.of w)
  else if w.extractLsb' 21 2 = 1 ∧ w.extractLsb' 4 4 = 7 then .bkpt (.of w)
  else if w.extractLsb' 4 1 = 0 then .unkMiscA w else .unkMiscB w

/-- Bits 27:25 = 000 (R137). -/
def decode000 (c : CoreId) (w : Word) : Instr :=
  if w.extractLsb' 4 4 = 9 then decodeMultiply w
  else if w.extractLsb' 7 1 = 1 ∧ w.extractLsb' 4 1 = 1 then decodeHdt c w
  else if w.extractLsb' 23 5 = 2 ∧ w.extractLsb' 20 1 = 0 then decodeMisc c w
  else if w.extractLsb' 4 1 = 0 then decodeDpShiftImm w
  else decodeDpShiftReg w

/-- Bits 27:25 = 001 (R137). -/
def decode001 (w : Word) : Instr :=
  if w.extractLsb' 23 2 = 2 ∧ w.extractLsb' 20 1 = 0 then
    if w.extractLsb' 21 1 = 1 then if w.extractLsb' 22 1 = 0 then .msrCpsrImm (.of w) else .msrSpsrImm (.of w)
    else .unkImm w
  else decodeDpImm w

/-- Class `SDT_IMM` (R142): B and L name the row; P = 0 with W = 1 is the T form (R257). -/
def decodeSdtImm (w : Word) : Instr :=
  if w.extractLsb' 24 1 = 0 ∧ w.extractLsb' 21 1 = 1 then
    if w.extractLsb' 22 1 = 0 then if w.extractLsb' 20 1 = 0 then .strtImm (.of w) else .ldrtImm (.of w)
    else if w.extractLsb' 20 1 = 0 then .strbtImm (.of w) else .ldrbtImm (.of w)
  else if w.extractLsb' 22 1 = 0 then if w.extractLsb' 20 1 = 0 then .strImm (.of w) else .ldrImm (.of w)
  else if w.extractLsb' 20 1 = 0 then .strbImm (.of w) else .ldrbImm (.of w)

/-- Class `SDT_REG` (R142): B and L name the row; P = 0 with W = 1 is the T form (R257). -/
def decodeSdtReg (w : Word) : Instr :=
  if w.extractLsb' 24 1 = 0 ∧ w.extractLsb' 21 1 = 1 then
    if w.extractLsb' 22 1 = 0 then if w.extractLsb' 20 1 = 0 then .strtReg (.of w) else .ldrtReg (.of w)
    else if w.extractLsb' 20 1 = 0 then .strbtReg (.of w) else .ldrbtReg (.of w)
  else if w.extractLsb' 22 1 = 0 then if w.extractLsb' 20 1 = 0 then .strReg (.of w) else .ldrReg (.of w)
  else if w.extractLsb' 20 1 = 0 then .strbReg (.of w) else .ldrbReg (.of w)

/-- Bits 27:25 = 111 (R137, R384). -/
def decode111 (c : CoreId) (w : Word) : Instr :=
  if w.extractLsb' 24 1 = 1 then .swi (.of w)
  else if w.extractLsb' 4 1 = 0 then .unkCdp w
  else if c = .a9 ∧ w.extractLsb' 8 4 = 15 ∧ w.extractLsb' 21 3 = 0 then
    if w.extractLsb' 20 1 = 0 then .mcr (.of w) else .mrc (.of w)
  else .coprocOther (.of w)

/-- The class of an ARM word by its key alone (R137). -/
def decodeClass (c : CoreId) (w : Word) : Instr :=
  match (w.extractLsb' 25 3).toNat with
  | 0 => decode000 c w
  | 1 => decode001 w
  | 2 => decodeSdtImm w
  | 3 => if w.extractLsb' 4 1 = 0 then decodeSdtReg w else .unkMedia w
  | 4 => if w.extractLsb' 20 1 = 0 then .stm (.of w) else .ldm (.of w)
  | 5 => if w.extractLsb' 24 1 = 0 then .b (.of w) else .bl (.of w)
  | 6 => .unkLdcStc w
  | _ => decode111 c w

/-- An ARM word on core `c`. On A9 the condition 1111 holds two classes of its own (R136); any other word with that
condition is decoded by its key and its condition then fails (R182). -/
def decodeArm (c : CoreId) (w : Word) : Instr :=
  if c = .a9 ∧ w.extractLsb' 28 4 = 15 ∧ w.extractLsb' 25 3 = 5 then .blxLabel (.of w)
  else if c = .a9 ∧ w.extractLsb' 28 4 = 15 ∧ w.extractLsb' 26 2 = 1 ∧ w.extractLsb' 24 1 = 1 ∧
      w.extractLsb' 20 3 = 5 then .pld (.of w)
  else decodeClass c w

/-- Thumb format 4 (R151): bits 9:6 name the row. -/
def decodeThumbAlu (h : Half) : Instr :=
  match (h.extractLsb' 6 4).toNat with
  | 0 => .tAnd (.of h)
  | 1 => .tEor (.of h)
  | 2 => .tLslReg (.of h)
  | 3 => .tLsrReg (.of h)
  | 4 => .tAsrReg (.of h)
  | 5 => .tAdc (.of h)
  | 6 => .tSbc (.of h)
  | 7 => .tRorReg (.of h)
  | 8 => .tTst (.of h)
  | 9 => .tNeg (.of h)
  | 10 => .tCmpReg (.of h)
  | 11 => .tCmn (.of h)
  | 12 => .tOrr (.of h)
  | 13 => .tMul (.of h)
  | 14 => .tBic (.of h)
  | _ => .tMvn (.of h)

/-- Thumb bits 15:13 = 000: formats 1 and 2 (R151). -/
def decodeThumb000 (h : Half) : Instr :=
  match (h.extractLsb' 11 2).toNat with
  | 0 => .tLslImm (.of h)
  | 1 => .tLsrImm (.of h)
  | 2 => .tAsrImm (.of h)
  | _ =>
    match (h.extractLsb' 9 2).toNat with
    | 0 => .tAddReg (.of h)
    | 1 => .tSubReg (.of h)
    | 2 => .tAddImm3 (.of h)
    | _ => .tSubImm3 (.of h)

/-- Thumb bits 15:10 = 010001: format 5 (R151). With H1 = 1 the exchange is BLX on A9 and BX on A7. -/
def decodeThumbHi (c : CoreId) (h : Half) : Instr :=
  match (h.extractLsb' 8 2).toNat with
  | 0 => .tAddHi (.of h)
  | 1 => .tCmpHi (.of h)
  | 2 => .tMovHi (.of h)
  | _ =>
    if h.extractLsb' 7 1 = 0 then .tBx (.of h)
    else if c = .a9 then .tBlxReg (.of h)
    else .tBxH1 (.of h)

/-- Thumb bits 15:13 = 010: formats 4 to 8 (R151). -/
def decodeThumb010 (c : CoreId) (h : Half) : Instr :=
  if h.extractLsb' 10 3 = 0 then decodeThumbAlu h
  else if h.extractLsb' 10 3 = 1 then decodeThumbHi c h
  else if h.extractLsb' 11 2 = 1 then .tLdrPc (.of h)
  else
    match (h.extractLsb' 9 3).toNat with
    | 0 => .tStrReg (.of h)
    | 1 => .tStrhReg (.of h)
    | 2 => .tStrbReg (.of h)
    | 3 => .tLdsbReg (.of h)
    | 4 => .tLdrReg (.of h)
    | 5 => .tLdrhReg (.of h)
    | 6 => .tLdrbReg (.of h)
    | _ => .tLdshReg (.of h)

/-- Thumb bits 15:12 = 1011: formats 13 and 14, BKPT, or unknown (R150). -/
def decodeThumb1011 (h : Half) : Instr :=
  if h.extractLsb' 8 4 = 0 then if h.extractLsb' 7 1 = 0 then .tIncSp (.of h) else .tDecSp (.of h)
  else if h.extractLsb' 9 2 = 2 then if h.extractLsb' 11 1 = 0 then .tPush (.of h) else .tPop (.of h)
  else if h.extractLsb' 8 4 = 14 then .tBkpt (.of h)
  else .tUnk1011 h

/-- Thumb bits 15:12 = 1101: formats 16 and 17 (R152, R470). -/
def decodeThumb1101 (h : Half) : Instr :=
  if h.extractLsb' 8 4 = 14 then .tUnkDe h
  else if h.extractLsb' 8 4 = 15 then .tSwi (.of h)
  else .tBcond (.of h)

/-- Thumb bits 15:13 = 111: formats 18 and 19 (R152). -/
def decodeThumb111 (c : CoreId) (h : Half) : Instr :=
  match (h.extractLsb' 11 2).toNat with
  | 0 => .tB (.of h)
  | 1 => if c = .a9 then .tBlxSuffix (.of h) else .tUnk11101 h
  | 2 => .tBlPrefix (.of h)
  | _ => .tBlSuffix (.of h)

/-- A Thumb half-word on core `c` (R150). -/
def decodeThumb (c : CoreId) (h : Half) : Instr :=
  match (h.extractLsb' 13 3).toNat with
  | 0 => decodeThumb000 h
  | 1 =>
    match (h.extractLsb' 11 2).toNat with
    | 0 => .tMovImm8 (.of h)
    | 1 => .tCmpImm8 (.of h)
    | 2 => .tAddImm8 (.of h)
    | _ => .tSubImm8 (.of h)
  | 2 => decodeThumb010 c h
  | 3 =>
    match (h.extractLsb' 11 2).toNat with
    | 0 => .tStrImm (.of h)
    | 1 => .tLdrImm (.of h)
    | 2 => .tStrbImm (.of h)
    | _ => .tLdrbImm (.of h)
  | 4 =>
    match (h.extractLsb' 11 2).toNat with
    | 0 => .tStrhImm (.of h)
    | 1 => .tLdrhImm (.of h)
    | 2 => .tStrSp (.of h)
    | _ => .tLdrSp (.of h)
  | 5 =>
    if h.extractLsb' 12 1 = 0 then if h.extractLsb' 11 1 = 0 then .tAddPc (.of h) else .tAddSp (.of h)
    else decodeThumb1011 h
  | 6 =>
    if h.extractLsb' 12 1 = 0 then if h.extractLsb' 11 1 = 0 then .tStmia (.of h) else .tLdmia (.of h)
    else decodeThumb1101 h
  | _ => decodeThumb111 c h

/-- Decoding (R131, R180): the instruction a core reads from a word or a half-word. -/
def decode (c : CoreId) : Code → Instr
  | .arm w => decodeArm c w
  | .thumb h => decodeThumb c h

/-- Why bytes are not an instruction: fewer of them than the instruction set in force needs (R130). -/
inductive DecodeError where
  | truncated
deriving DecidableEq, Repr

/-- Decoding from bytes, lowest address first (R74, R130): `thumb` is `CPSR.T`. The rest of the bytes is returned. -/
def decodeBytes (c : CoreId) (thumb : Bool) : List Byte → Except DecodeError (Instr × List Byte)
  | b0 :: b1 :: rest =>
    if thumb then .ok (decode c (.thumb (b1 ++ b0)), rest)
    else
      match rest with
      | b2 :: b3 :: rest' => .ok (decode c (.arm (b3 ++ b2 ++ b1 ++ b0)), rest')
      | _ => .error .truncated
  | _ => .error .truncated

/-- The word or half-word of an instruction (R138 to R152); an instruction of an unknown class is its own word. -/
def encode : Instr → Code
  | .andImm h x => .arm (h.cond ++ 1#3 ++ 0#4 ++ h.s ++ h.rn ++ h.rd ++ x.rotate ++ x.imm8)
  | .andShiftImm h x => .arm (h.cond ++ 0#3 ++ 0#4 ++ h.s ++ h.rn ++ h.rd ++ x.amount ++ x.type.bits ++ 0#1 ++ x.rm)
  | .andShiftReg h x =>
    .arm (h.cond ++ 0#3 ++ 0#4 ++ h.s ++ h.rn ++ h.rd ++ x.rs ++ 0#1 ++ x.type.bits ++ 1#1 ++ x.rm)
  | .eorImm h x => .arm (h.cond ++ 1#3 ++ 1#4 ++ h.s ++ h.rn ++ h.rd ++ x.rotate ++ x.imm8)
  | .eorShiftImm h x => .arm (h.cond ++ 0#3 ++ 1#4 ++ h.s ++ h.rn ++ h.rd ++ x.amount ++ x.type.bits ++ 0#1 ++ x.rm)
  | .eorShiftReg h x =>
    .arm (h.cond ++ 0#3 ++ 1#4 ++ h.s ++ h.rn ++ h.rd ++ x.rs ++ 0#1 ++ x.type.bits ++ 1#1 ++ x.rm)
  | .subImm h x => .arm (h.cond ++ 1#3 ++ 2#4 ++ h.s ++ h.rn ++ h.rd ++ x.rotate ++ x.imm8)
  | .subShiftImm h x => .arm (h.cond ++ 0#3 ++ 2#4 ++ h.s ++ h.rn ++ h.rd ++ x.amount ++ x.type.bits ++ 0#1 ++ x.rm)
  | .subShiftReg h x =>
    .arm (h.cond ++ 0#3 ++ 2#4 ++ h.s ++ h.rn ++ h.rd ++ x.rs ++ 0#1 ++ x.type.bits ++ 1#1 ++ x.rm)
  | .rsbImm h x => .arm (h.cond ++ 1#3 ++ 3#4 ++ h.s ++ h.rn ++ h.rd ++ x.rotate ++ x.imm8)
  | .rsbShiftImm h x => .arm (h.cond ++ 0#3 ++ 3#4 ++ h.s ++ h.rn ++ h.rd ++ x.amount ++ x.type.bits ++ 0#1 ++ x.rm)
  | .rsbShiftReg h x =>
    .arm (h.cond ++ 0#3 ++ 3#4 ++ h.s ++ h.rn ++ h.rd ++ x.rs ++ 0#1 ++ x.type.bits ++ 1#1 ++ x.rm)
  | .addImm h x => .arm (h.cond ++ 1#3 ++ 4#4 ++ h.s ++ h.rn ++ h.rd ++ x.rotate ++ x.imm8)
  | .addShiftImm h x => .arm (h.cond ++ 0#3 ++ 4#4 ++ h.s ++ h.rn ++ h.rd ++ x.amount ++ x.type.bits ++ 0#1 ++ x.rm)
  | .addShiftReg h x =>
    .arm (h.cond ++ 0#3 ++ 4#4 ++ h.s ++ h.rn ++ h.rd ++ x.rs ++ 0#1 ++ x.type.bits ++ 1#1 ++ x.rm)
  | .adcImm h x => .arm (h.cond ++ 1#3 ++ 5#4 ++ h.s ++ h.rn ++ h.rd ++ x.rotate ++ x.imm8)
  | .adcShiftImm h x => .arm (h.cond ++ 0#3 ++ 5#4 ++ h.s ++ h.rn ++ h.rd ++ x.amount ++ x.type.bits ++ 0#1 ++ x.rm)
  | .adcShiftReg h x =>
    .arm (h.cond ++ 0#3 ++ 5#4 ++ h.s ++ h.rn ++ h.rd ++ x.rs ++ 0#1 ++ x.type.bits ++ 1#1 ++ x.rm)
  | .sbcImm h x => .arm (h.cond ++ 1#3 ++ 6#4 ++ h.s ++ h.rn ++ h.rd ++ x.rotate ++ x.imm8)
  | .sbcShiftImm h x => .arm (h.cond ++ 0#3 ++ 6#4 ++ h.s ++ h.rn ++ h.rd ++ x.amount ++ x.type.bits ++ 0#1 ++ x.rm)
  | .sbcShiftReg h x =>
    .arm (h.cond ++ 0#3 ++ 6#4 ++ h.s ++ h.rn ++ h.rd ++ x.rs ++ 0#1 ++ x.type.bits ++ 1#1 ++ x.rm)
  | .rscImm h x => .arm (h.cond ++ 1#3 ++ 7#4 ++ h.s ++ h.rn ++ h.rd ++ x.rotate ++ x.imm8)
  | .rscShiftImm h x => .arm (h.cond ++ 0#3 ++ 7#4 ++ h.s ++ h.rn ++ h.rd ++ x.amount ++ x.type.bits ++ 0#1 ++ x.rm)
  | .rscShiftReg h x =>
    .arm (h.cond ++ 0#3 ++ 7#4 ++ h.s ++ h.rn ++ h.rd ++ x.rs ++ 0#1 ++ x.type.bits ++ 1#1 ++ x.rm)
  | .tstImm h x => .arm (h.cond ++ 1#3 ++ 8#4 ++ 1#1 ++ h.rn ++ h.rd ++ x.rotate ++ x.imm8)
  | .tstShiftImm h x => .arm (h.cond ++ 0#3 ++ 8#4 ++ 1#1 ++ h.rn ++ h.rd ++ x.amount ++ x.type.bits ++ 0#1 ++ x.rm)
  | .tstShiftReg h x =>
    .arm (h.cond ++ 0#3 ++ 8#4 ++ 1#1 ++ h.rn ++ h.rd ++ x.rs ++ 0#1 ++ x.type.bits ++ 1#1 ++ x.rm)
  | .teqImm h x => .arm (h.cond ++ 1#3 ++ 9#4 ++ 1#1 ++ h.rn ++ h.rd ++ x.rotate ++ x.imm8)
  | .teqShiftImm h x => .arm (h.cond ++ 0#3 ++ 9#4 ++ 1#1 ++ h.rn ++ h.rd ++ x.amount ++ x.type.bits ++ 0#1 ++ x.rm)
  | .teqShiftReg h x =>
    .arm (h.cond ++ 0#3 ++ 9#4 ++ 1#1 ++ h.rn ++ h.rd ++ x.rs ++ 0#1 ++ x.type.bits ++ 1#1 ++ x.rm)
  | .cmpImm h x => .arm (h.cond ++ 1#3 ++ 10#4 ++ 1#1 ++ h.rn ++ h.rd ++ x.rotate ++ x.imm8)
  | .cmpShiftImm h x =>
    .arm (h.cond ++ 0#3 ++ 10#4 ++ 1#1 ++ h.rn ++ h.rd ++ x.amount ++ x.type.bits ++ 0#1 ++ x.rm)
  | .cmpShiftReg h x =>
    .arm (h.cond ++ 0#3 ++ 10#4 ++ 1#1 ++ h.rn ++ h.rd ++ x.rs ++ 0#1 ++ x.type.bits ++ 1#1 ++ x.rm)
  | .cmnImm h x => .arm (h.cond ++ 1#3 ++ 11#4 ++ 1#1 ++ h.rn ++ h.rd ++ x.rotate ++ x.imm8)
  | .cmnShiftImm h x =>
    .arm (h.cond ++ 0#3 ++ 11#4 ++ 1#1 ++ h.rn ++ h.rd ++ x.amount ++ x.type.bits ++ 0#1 ++ x.rm)
  | .cmnShiftReg h x =>
    .arm (h.cond ++ 0#3 ++ 11#4 ++ 1#1 ++ h.rn ++ h.rd ++ x.rs ++ 0#1 ++ x.type.bits ++ 1#1 ++ x.rm)
  | .orrImm h x => .arm (h.cond ++ 1#3 ++ 12#4 ++ h.s ++ h.rn ++ h.rd ++ x.rotate ++ x.imm8)
  | .orrShiftImm h x =>
    .arm (h.cond ++ 0#3 ++ 12#4 ++ h.s ++ h.rn ++ h.rd ++ x.amount ++ x.type.bits ++ 0#1 ++ x.rm)
  | .orrShiftReg h x =>
    .arm (h.cond ++ 0#3 ++ 12#4 ++ h.s ++ h.rn ++ h.rd ++ x.rs ++ 0#1 ++ x.type.bits ++ 1#1 ++ x.rm)
  | .movImm h x => .arm (h.cond ++ 1#3 ++ 13#4 ++ h.s ++ h.rn ++ h.rd ++ x.rotate ++ x.imm8)
  | .movShiftImm h x =>
    .arm (h.cond ++ 0#3 ++ 13#4 ++ h.s ++ h.rn ++ h.rd ++ x.amount ++ x.type.bits ++ 0#1 ++ x.rm)
  | .movShiftReg h x =>
    .arm (h.cond ++ 0#3 ++ 13#4 ++ h.s ++ h.rn ++ h.rd ++ x.rs ++ 0#1 ++ x.type.bits ++ 1#1 ++ x.rm)
  | .bicImm h x => .arm (h.cond ++ 1#3 ++ 14#4 ++ h.s ++ h.rn ++ h.rd ++ x.rotate ++ x.imm8)
  | .bicShiftImm h x =>
    .arm (h.cond ++ 0#3 ++ 14#4 ++ h.s ++ h.rn ++ h.rd ++ x.amount ++ x.type.bits ++ 0#1 ++ x.rm)
  | .bicShiftReg h x =>
    .arm (h.cond ++ 0#3 ++ 14#4 ++ h.s ++ h.rn ++ h.rd ++ x.rs ++ 0#1 ++ x.type.bits ++ 1#1 ++ x.rm)
  | .mvnImm h x => .arm (h.cond ++ 1#3 ++ 15#4 ++ h.s ++ h.rn ++ h.rd ++ x.rotate ++ x.imm8)
  | .mvnShiftImm h x =>
    .arm (h.cond ++ 0#3 ++ 15#4 ++ h.s ++ h.rn ++ h.rd ++ x.amount ++ x.type.bits ++ 0#1 ++ x.rm)
  | .mvnShiftReg h x =>
    .arm (h.cond ++ 0#3 ++ 15#4 ++ h.s ++ h.rn ++ h.rd ++ x.rs ++ 0#1 ++ x.type.bits ++ 1#1 ++ x.rm)
  | .mul o => .arm (o.cond ++ 0#6 ++ 0#1 ++ o.s ++ o.rd ++ o.rn ++ o.rs ++ 9#4 ++ o.rm)
  | .mla o => .arm (o.cond ++ 0#6 ++ 1#1 ++ o.s ++ o.rd ++ o.rn ++ o.rs ++ 9#4 ++ o.rm)
  | .umull o => .arm (o.cond ++ 1#5 ++ 0#2 ++ o.s ++ o.rdHi ++ o.rdLo ++ o.rs ++ 9#4 ++ o.rm)
  | .umlal o => .arm (o.cond ++ 1#5 ++ 1#2 ++ o.s ++ o.rdHi ++ o.rdLo ++ o.rs ++ 9#4 ++ o.rm)
  | .smull o => .arm (o.cond ++ 1#5 ++ 2#2 ++ o.s ++ o.rdHi ++ o.rdLo ++ o.rs ++ 9#4 ++ o.rm)
  | .smlal o => .arm (o.cond ++ 1#5 ++ 3#2 ++ o.s ++ o.rdHi ++ o.rdLo ++ o.rs ++ 9#4 ++ o.rm)
  | .swp o => .arm (o.cond ++ 2#5 ++ 0#1 ++ 0#2 ++ o.rn ++ o.rd ++ o.sbz ++ 9#4 ++ o.rm)
  | .swpb o => .arm (o.cond ++ 2#5 ++ 1#1 ++ 0#2 ++ o.rn ++ o.rd ++ o.sbz ++ 9#4 ++ o.rm)
  | .strhReg o =>
    .arm (o.cond ++ 0#3 ++ o.p ++ o.u ++ 0#1 ++ o.w ++ 0#1 ++ o.rn ++ o.rd ++ o.sbz ++ 1#1 ++ 1#2 ++ 1#1 ++ o.rm)
  | .strhImm o =>
    .arm ((o.cond ++ 0#3 ++ o.p ++ o.u ++ 1#1 ++ o.w ++ 0#1) ++
      (o.rn ++ o.rd ++ o.immHi ++ 1#1 ++ 1#2 ++ 1#1 ++ o.immLo))
  | .ldrhReg o =>
    .arm (o.cond ++ 0#3 ++ o.p ++ o.u ++ 0#1 ++ o.w ++ 1#1 ++ o.rn ++ o.rd ++ o.sbz ++ 1#1 ++ 1#2 ++ 1#1 ++ o.rm)
  | .ldrhImm o =>
    .arm ((o.cond ++ 0#3 ++ o.p ++ o.u ++ 1#1 ++ o.w ++ 1#1) ++
      (o.rn ++ o.rd ++ o.immHi ++ 1#1 ++ 1#2 ++ 1#1 ++ o.immLo))
  | .ldrsbReg o =>
    .arm (o.cond ++ 0#3 ++ o.p ++ o.u ++ 0#1 ++ o.w ++ 1#1 ++ o.rn ++ o.rd ++ o.sbz ++ 1#1 ++ 2#2 ++ 1#1 ++ o.rm)
  | .ldrsbImm o =>
    .arm ((o.cond ++ 0#3 ++ o.p ++ o.u ++ 1#1 ++ o.w ++ 1#1) ++
      (o.rn ++ o.rd ++ o.immHi ++ 1#1 ++ 2#2 ++ 1#1 ++ o.immLo))
  | .ldrshReg o =>
    .arm (o.cond ++ 0#3 ++ o.p ++ o.u ++ 0#1 ++ o.w ++ 1#1 ++ o.rn ++ o.rd ++ o.sbz ++ 1#1 ++ 3#2 ++ 1#1 ++ o.rm)
  | .ldrshImm o =>
    .arm ((o.cond ++ 0#3 ++ o.p ++ o.u ++ 1#1 ++ o.w ++ 1#1) ++
      (o.rn ++ o.rd ++ o.immHi ++ 1#1 ++ 3#2 ++ 1#1 ++ o.immLo))
  | .ldrdReg o =>
    .arm (o.cond ++ 0#3 ++ o.p ++ o.u ++ 0#1 ++ o.w ++ 0#1 ++ o.rn ++ o.rd ++ o.sbz ++ 1#1 ++ 2#2 ++ 1#1 ++ o.rm)
  | .ldrdImm o =>
    .arm ((o.cond ++ 0#3 ++ o.p ++ o.u ++ 1#1 ++ o.w ++ 0#1) ++
      (o.rn ++ o.rd ++ o.immHi ++ 1#1 ++ 2#2 ++ 1#1 ++ o.immLo))
  | .strdReg o =>
    .arm (o.cond ++ 0#3 ++ o.p ++ o.u ++ 0#1 ++ o.w ++ 0#1 ++ o.rn ++ o.rd ++ o.sbz ++ 1#1 ++ 3#2 ++ 1#1 ++ o.rm)
  | .strdImm o =>
    .arm ((o.cond ++ 0#3 ++ o.p ++ o.u ++ 1#1 ++ o.w ++ 0#1) ++
      (o.rn ++ o.rd ++ o.immHi ++ 1#1 ++ 3#2 ++ 1#1 ++ o.immLo))
  | .unkDoubleA7 word => .arm word
  | .mrs o => .arm (o.cond ++ 2#5 ++ o.r ++ 0#2 ++ o.sbo ++ o.rd ++ o.sbz ++ 0#4 ++ o.sbz2)
  | .msrCpsrReg o => .arm (o.cond ++ 2#5 ++ 0#1 ++ 2#2 ++ o.mask ++ o.sbo ++ o.sbz ++ 0#4 ++ o.rm)
  | .msrSpsrReg o => .arm (o.cond ++ 2#5 ++ 1#1 ++ 2#2 ++ o.mask ++ o.sbo ++ o.sbz ++ 0#4 ++ o.rm)
  | .msrCpsrImm o => .arm (o.cond ++ 6#5 ++ 0#1 ++ 2#2 ++ o.mask ++ o.sbo ++ o.rotate ++ o.imm8)
  | .msrSpsrImm o => .arm (o.cond ++ 6#5 ++ 1#1 ++ 2#2 ++ o.mask ++ o.sbo ++ o.rotate ++ o.imm8)
  | .bx o => .arm (o.cond ++ 18#8 ++ o.sbo ++ 1#4 ++ o.rm)
  | .blxReg o => .arm (o.cond ++ 18#8 ++ o.sbo ++ 3#4 ++ o.rm)
  | .bkpt o => .arm (o.cond ++ 18#8 ++ o.imm12 ++ 7#4 ++ o.imm4)
  | .clz o => .arm (o.cond ++ 22#8 ++ o.sbo ++ o.rd ++ o.sbo2 ++ 1#4 ++ o.rm)
  | .qadd o => .arm (o.cond ++ 2#5 ++ 0#2 ++ 0#1 ++ o.rn ++ o.rd ++ o.sbz ++ 5#4 ++ o.rm)
  | .qsub o => .arm (o.cond ++ 2#5 ++ 1#2 ++ 0#1 ++ o.rn ++ o.rd ++ o.sbz ++ 5#4 ++ o.rm)
  | .qdadd o => .arm (o.cond ++ 2#5 ++ 2#2 ++ 0#1 ++ o.rn ++ o.rd ++ o.sbz ++ 5#4 ++ o.rm)
  | .qdsub o => .arm (o.cond ++ 2#5 ++ 3#2 ++ 0#1 ++ o.rn ++ o.rd ++ o.sbz ++ 5#4 ++ o.rm)
  | .smlaXy o => .arm (o.cond ++ 2#5 ++ 0#2 ++ 0#1 ++ o.rd ++ o.rn ++ o.rs ++ 1#1 ++ o.y ++ o.x ++ 0#1 ++ o.rm)
  | .smlawY o => .arm (o.cond ++ 2#5 ++ 1#2 ++ 0#1 ++ o.rd ++ o.rn ++ o.rs ++ 1#1 ++ o.y ++ 0#1 ++ 0#1 ++ o.rm)
  | .smulwY o => .arm (o.cond ++ 2#5 ++ 1#2 ++ 0#1 ++ o.rd ++ o.rn ++ o.rs ++ 1#1 ++ o.y ++ 1#1 ++ 0#1 ++ o.rm)
  | .smlalXy o => .arm (o.cond ++ 2#5 ++ 2#2 ++ 0#1 ++ o.rdHi ++ o.rdLo ++ o.rs ++ 1#1 ++ o.y ++ o.x ++ 0#1 ++ o.rm)
  | .smulXy o => .arm (o.cond ++ 2#5 ++ 3#2 ++ 0#1 ++ o.rd ++ o.rn ++ o.rs ++ 1#1 ++ o.y ++ o.x ++ 0#1 ++ o.rm)
  | .strImm o => .arm (o.cond ++ 2#3 ++ o.p ++ o.u ++ 0#1 ++ o.w ++ 0#1 ++ o.rn ++ o.rd ++ o.offset)
  | .strReg o =>
    .arm ((o.cond ++ 3#3 ++ o.p ++ o.u ++ 0#1 ++ o.w) ++
      (0#1 ++ o.rn ++ o.rd ++ o.amount ++ o.type.bits ++ 0#1 ++ o.rm))
  | .ldrImm o => .arm (o.cond ++ 2#3 ++ o.p ++ o.u ++ 0#1 ++ o.w ++ 1#1 ++ o.rn ++ o.rd ++ o.offset)
  | .ldrReg o =>
    .arm ((o.cond ++ 3#3 ++ o.p ++ o.u ++ 0#1 ++ o.w) ++
      (1#1 ++ o.rn ++ o.rd ++ o.amount ++ o.type.bits ++ 0#1 ++ o.rm))
  | .strbImm o => .arm (o.cond ++ 2#3 ++ o.p ++ o.u ++ 1#1 ++ o.w ++ 0#1 ++ o.rn ++ o.rd ++ o.offset)
  | .strbReg o =>
    .arm ((o.cond ++ 3#3 ++ o.p ++ o.u ++ 1#1 ++ o.w) ++
      (0#1 ++ o.rn ++ o.rd ++ o.amount ++ o.type.bits ++ 0#1 ++ o.rm))
  | .ldrbImm o => .arm (o.cond ++ 2#3 ++ o.p ++ o.u ++ 1#1 ++ o.w ++ 1#1 ++ o.rn ++ o.rd ++ o.offset)
  | .ldrbReg o =>
    .arm ((o.cond ++ 3#3 ++ o.p ++ o.u ++ 1#1 ++ o.w) ++
      (1#1 ++ o.rn ++ o.rd ++ o.amount ++ o.type.bits ++ 0#1 ++ o.rm))
  | .strtImm o => .arm (o.cond ++ 2#3 ++ 0#1 ++ o.u ++ 0#1 ++ 1#1 ++ 0#1 ++ o.rn ++ o.rd ++ o.offset)
  | .strtReg o =>
    .arm ((o.cond ++ 3#3 ++ 0#1 ++ o.u ++ 0#1 ++ 1#1) ++
      (0#1 ++ o.rn ++ o.rd ++ o.amount ++ o.type.bits ++ 0#1 ++ o.rm))
  | .ldrtImm o => .arm (o.cond ++ 2#3 ++ 0#1 ++ o.u ++ 0#1 ++ 1#1 ++ 1#1 ++ o.rn ++ o.rd ++ o.offset)
  | .ldrtReg o =>
    .arm ((o.cond ++ 3#3 ++ 0#1 ++ o.u ++ 0#1 ++ 1#1) ++
      (1#1 ++ o.rn ++ o.rd ++ o.amount ++ o.type.bits ++ 0#1 ++ o.rm))
  | .strbtImm o => .arm (o.cond ++ 2#3 ++ 0#1 ++ o.u ++ 1#1 ++ 1#1 ++ 0#1 ++ o.rn ++ o.rd ++ o.offset)
  | .strbtReg o =>
    .arm ((o.cond ++ 3#3 ++ 0#1 ++ o.u ++ 1#1 ++ 1#1) ++
      (0#1 ++ o.rn ++ o.rd ++ o.amount ++ o.type.bits ++ 0#1 ++ o.rm))
  | .ldrbtImm o => .arm (o.cond ++ 2#3 ++ 0#1 ++ o.u ++ 1#1 ++ 1#1 ++ 1#1 ++ o.rn ++ o.rd ++ o.offset)
  | .ldrbtReg o =>
    .arm ((o.cond ++ 3#3 ++ 0#1 ++ o.u ++ 1#1 ++ 1#1) ++
      (1#1 ++ o.rn ++ o.rd ++ o.amount ++ o.type.bits ++ 0#1 ++ o.rm))
  | .stm o => .arm (o.cond ++ 4#3 ++ o.p ++ o.u ++ o.s ++ o.w ++ 0#1 ++ o.rn ++ o.list)
  | .ldm o => .arm (o.cond ++ 4#3 ++ o.p ++ o.u ++ o.s ++ o.w ++ 1#1 ++ o.rn ++ o.list)
  | .b o => .arm (o.cond ++ 5#3 ++ 0#1 ++ o.imm24)
  | .bl o => .arm (o.cond ++ 5#3 ++ 1#1 ++ o.imm24)
  | .blxLabel o => .arm (15#4 ++ 5#3 ++ o.h ++ o.imm24)
  | .pld o => .arm (15#4 ++ 1#2 ++ o.i ++ 1#1 ++ o.u ++ 5#3 ++ o.rn ++ o.sbo ++ o.offset)
  | .mrc o => .arm (o.cond ++ 14#4 ++ 0#3 ++ 1#1 ++ o.crn ++ o.rd ++ 15#4 ++ o.op2 ++ 1#1 ++ o.crm)
  | .mcr o => .arm (o.cond ++ 14#4 ++ 0#3 ++ 0#1 ++ o.crn ++ o.rd ++ 15#4 ++ o.op2 ++ 1#1 ++ o.crm)
  | .coprocOther o => .arm (o.cond ++ 14#4 ++ o.op1 ++ o.l ++ o.crn ++ o.rd ++ o.cp ++ o.op2 ++ 1#1 ++ o.crm)
  | .swi o => .arm (o.cond ++ 15#4 ++ o.comment)
  | .unkMiscA word => .arm word
  | .unkMiscB word => .arm word
  | .unkImm word => .arm word
  | .unk1001 word => .arm word
  | .unkMedia word => .arm word
  | .unkLdcStc word => .arm word
  | .unkCdp word => .arm word
  | .tLslImm o => .thumb (0#3 ++ 0#2 ++ o.imm5 ++ o.rs ++ o.rd)
  | .tLsrImm o => .thumb (0#3 ++ 1#2 ++ o.imm5 ++ o.rs ++ o.rd)
  | .tAsrImm o => .thumb (0#3 ++ 2#2 ++ o.imm5 ++ o.rs ++ o.rd)
  | .tAddReg o => .thumb (3#5 ++ 0#2 ++ o.rn ++ o.rs ++ o.rd)
  | .tSubReg o => .thumb (3#5 ++ 1#2 ++ o.rn ++ o.rs ++ o.rd)
  | .tAddImm3 o => .thumb (3#5 ++ 2#2 ++ o.imm3 ++ o.rs ++ o.rd)
  | .tSubImm3 o => .thumb (3#5 ++ 3#2 ++ o.imm3 ++ o.rs ++ o.rd)
  | .tMovImm8 o => .thumb (1#3 ++ 0#2 ++ o.rd ++ o.imm8)
  | .tCmpImm8 o => .thumb (1#3 ++ 1#2 ++ o.rd ++ o.imm8)
  | .tAddImm8 o => .thumb (1#3 ++ 2#2 ++ o.rd ++ o.imm8)
  | .tSubImm8 o => .thumb (1#3 ++ 3#2 ++ o.rd ++ o.imm8)
  | .tAnd o => .thumb (16#6 ++ 0#4 ++ o.rs ++ o.rd)
  | .tEor o => .thumb (16#6 ++ 1#4 ++ o.rs ++ o.rd)
  | .tLslReg o => .thumb (16#6 ++ 2#4 ++ o.rs ++ o.rd)
  | .tLsrReg o => .thumb (16#6 ++ 3#4 ++ o.rs ++ o.rd)
  | .tAsrReg o => .thumb (16#6 ++ 4#4 ++ o.rs ++ o.rd)
  | .tAdc o => .thumb (16#6 ++ 5#4 ++ o.rs ++ o.rd)
  | .tSbc o => .thumb (16#6 ++ 6#4 ++ o.rs ++ o.rd)
  | .tRorReg o => .thumb (16#6 ++ 7#4 ++ o.rs ++ o.rd)
  | .tTst o => .thumb (16#6 ++ 8#4 ++ o.rs ++ o.rd)
  | .tNeg o => .thumb (16#6 ++ 9#4 ++ o.rs ++ o.rd)
  | .tCmpReg o => .thumb (16#6 ++ 10#4 ++ o.rs ++ o.rd)
  | .tCmn o => .thumb (16#6 ++ 11#4 ++ o.rs ++ o.rd)
  | .tOrr o => .thumb (16#6 ++ 12#4 ++ o.rs ++ o.rd)
  | .tMul o => .thumb (16#6 ++ 13#4 ++ o.rs ++ o.rd)
  | .tBic o => .thumb (16#6 ++ 14#4 ++ o.rs ++ o.rd)
  | .tMvn o => .thumb (16#6 ++ 15#4 ++ o.rs ++ o.rd)
  | .tAddHi o => .thumb (17#6 ++ 0#2 ++ o.h1 ++ o.h2 ++ o.rsLow ++ o.rdLow)
  | .tCmpHi o => .thumb (17#6 ++ 1#2 ++ o.h1 ++ o.h2 ++ o.rsLow ++ o.rdLow)
  | .tMovHi o => .thumb (17#6 ++ 2#2 ++ o.h1 ++ o.h2 ++ o.rsLow ++ o.rdLow)
  | .tBx o => .thumb (17#6 ++ 3#2 ++ 0#1 ++ o.h2 ++ o.rsLow ++ o.sbz)
  | .tBlxReg o => .thumb (17#6 ++ 3#2 ++ 1#1 ++ o.h2 ++ o.rsLow ++ o.sbz)
  | .tBxH1 o => .thumb (17#6 ++ 3#2 ++ 1#1 ++ o.h2 ++ o.rsLow ++ o.sbz)
  | .tLdrPc o => .thumb (9#5 ++ o.rd ++ o.imm8)
  | .tStrReg o => .thumb (5#4 ++ 0#3 ++ o.ro ++ o.rb ++ o.rd)
  | .tStrbReg o => .thumb (5#4 ++ 2#3 ++ o.ro ++ o.rb ++ o.rd)
  | .tLdrReg o => .thumb (5#4 ++ 4#3 ++ o.ro ++ o.rb ++ o.rd)
  | .tLdrbReg o => .thumb (5#4 ++ 6#3 ++ o.ro ++ o.rb ++ o.rd)
  | .tStrhReg o => .thumb (5#4 ++ 1#3 ++ o.ro ++ o.rb ++ o.rd)
  | .tLdsbReg o => .thumb (5#4 ++ 3#3 ++ o.ro ++ o.rb ++ o.rd)
  | .tLdrhReg o => .thumb (5#4 ++ 5#3 ++ o.ro ++ o.rb ++ o.rd)
  | .tLdshReg o => .thumb (5#4 ++ 7#3 ++ o.ro ++ o.rb ++ o.rd)
  | .tStrImm o => .thumb (3#3 ++ 0#2 ++ o.imm5 ++ o.rb ++ o.rd)
  | .tLdrImm o => .thumb (3#3 ++ 1#2 ++ o.imm5 ++ o.rb ++ o.rd)
  | .tStrbImm o => .thumb (3#3 ++ 2#2 ++ o.imm5 ++ o.rb ++ o.rd)
  | .tLdrbImm o => .thumb (3#3 ++ 3#2 ++ o.imm5 ++ o.rb ++ o.rd)
  | .tStrhImm o => .thumb (8#4 ++ 0#1 ++ o.imm5 ++ o.rb ++ o.rd)
  | .tLdrhImm o => .thumb (8#4 ++ 1#1 ++ o.imm5 ++ o.rb ++ o.rd)
  | .tStrSp o => .thumb (9#4 ++ 0#1 ++ o.rd ++ o.imm8)
  | .tLdrSp o => .thumb (9#4 ++ 1#1 ++ o.rd ++ o.imm8)
  | .tAddPc o => .thumb (10#4 ++ 0#1 ++ o.rd ++ o.imm8)
  | .tAddSp o => .thumb (10#4 ++ 1#1 ++ o.rd ++ o.imm8)
  | .tIncSp o => .thumb (176#8 ++ 0#1 ++ o.imm7)
  | .tDecSp o => .thumb (176#8 ++ 1#1 ++ o.imm7)
  | .tPush o => .thumb (11#4 ++ 0#1 ++ 2#2 ++ o.r ++ o.rlist)
  | .tPop o => .thumb (11#4 ++ 1#1 ++ 2#2 ++ o.r ++ o.rlist)
  | .tBkpt o => .thumb (190#8 ++ o.comment)
  | .tUnk1011 half => .thumb half
  | .tStmia o => .thumb (12#4 ++ 0#1 ++ o.rb ++ o.rlist)
  | .tLdmia o => .thumb (12#4 ++ 1#1 ++ o.rb ++ o.rlist)
  | .tBcond o => .thumb (13#4 ++ o.cond ++ o.soffset)
  | .tUnkDe half => .thumb half
  | .tSwi o => .thumb (223#8 ++ o.comment)
  | .tB o => .thumb (28#5 ++ o.offset)
  | .tBlPrefix o => .thumb (30#5 ++ o.offset)
  | .tBlSuffix o => .thumb (31#5 ++ o.offset)
  | .tBlxSuffix o => .thumb (29#5 ++ o.offset)
  | .tUnk11101 half => .thumb half

/-- The word an unknown instruction is logged with (R390): a half-word is zero-extended. -/
def codeWord (i : Instr) : Word :=
  match encode i with
  | .arm w => w
  | .thumb h => h.setWidth 32

/-- The code the opcode table numbers `w`: up to 16 bits a Thumb half-word, more an ARM word; both little-endian in memory
(R74), so bit 0 is bit 0 of the first byte. -/
def tableCode (nbits w : Nat) : Code :=
  if nbits ≤ 16 then .thumb (BitVec.ofNat 16 w) else .arm (BitVec.ofNat 32 w)

/-- The core a table word is read on: core A9, unless both cores read the word alike (then A7). The rows of core A7 alone
(68, 152, 187) share their words with rows of A9. -/
def tableCore (code : Code) : CoreId :=
  if decode .a7 code = decode .a9 code then .a7 else .a9

/-- The instruction the decoder reads from a table word of `nbits` bits; refused where the number does not fit. -/
def decodeTableWord (nbits w : Nat) : Option Instr :=
  if nbits ≤ 32 ∧ w < 2 ^ nbits then
    some (decode (tableCore (tableCode nbits w)) (tableCode nbits w))
  else none

end Sys2Proof
end

