-- ==== Sys2Proof/Config.lean ====
section
/-! DEFINITION. What the spec leaves to the implementation without a default, and the source of free values. Nothing here has
a body: no proof can see a value. The parameters with a default (spec/00_scope.md R8) are in Machine/Params.lean, and the state holds them. -/

namespace Sys2Proof.Config

/-- A free 32-bit value, drawn with the counter `State.freeCount`: the value read from an unlisted CP15 register (R388: "a
model treats the value read from an unlisted register as *any value*"; log 17), and a peripheral's own value (log 10). -/
opaque freeWord : Nat → Word

/-- What a peripheral computes from its fields and the value written, for each number of a function: any function at all
(R102: "an arbitrary closure"; log 10). -/
opaque compute : Nat → List (Nat × Dword) → Dword → Dword

/-- `BURST` less one (R8: OPEN, any positive number; R550; log 2). -/
opaque burstLessOne : BitVec 64

end Sys2Proof.Config
end

