-- ==== Sys2Proof/Machine/Params.lean ====
section
/-! DEFINITION. The implementation parameters of spec/00_scope.md R8: those marked OPEN as the fields of `Parameters`, which the
state holds and no step changes (log 19), with their defaults; the fixed ones as named constants. -/

namespace Sys2Proof.Machine

/-- One value for each core. -/
structure PerCore (α : Type) where
  a7 : α
  a9 : α
deriving DecidableEq, Repr

/-- The value of core `c`. -/
def PerCore.get {α : Type} (p : PerCore α) : CoreId → α
  | .a7 => p.a7
  | .a9 => p.a9

/-- The backing buffers a page-table entry or the slow path can name (R36, R39, R84). -/
inductive Buf where
  | biosA7
  | biosA9
  | mainRam
  | sharedWram
  | a7Wram
  | vram
  | palette
  | oam
  | itcm
  | dtcm
deriving DecidableEq, Repr

/-- A run of bytes of a buffer that repeats through a region: address `a` is byte `offset + a mod size` (R84). -/
structure Mirror where
  buf    : Buf
  offset : Nat
  size   : Nat
deriving DecidableEq, Repr

/-- What a region does (R81 to R86): the core's boot ROM with its first byte at `base`; plain storage; storage chosen by
`wram_mode`, in its four layouts; the register window; video memory; the cartridge slot. -/
inductive RegionKind where
  | bios (base : Nat)
  | ram (m : Mirror)
  | byMode (m0 m1 m2 m3 : Option Mirror)
  | mmio
  | video
  | cartridge
deriving DecidableEq, Repr

/-- One row of a region table: the addresses `low ≤ a < high` (R84). -/
structure Region where
  low  : Nat
  high : Nat
  kind : RegionKind
deriving DecidableEq, Repr

/-- The parameters R8 marks OPEN, but for `BURST` (Config.lean) and `VideoResolve` (held with the region controls). -/
structure Parameters where
  /-- `PAGE_BITS` (R8, R34). -/
  pageBits   : Nat
  /-- `BOOT_SP_SYS`, `BOOT_SP_IRQ`, `BOOT_SP_SVC` (R573). -/
  bootSpSys  : PerCore Word
  bootSpIrq  : PerCore Word
  bootSpSvc  : PerCore Word
  /-- `CYCLES` (R178): the cost of the instructions of a row of the opcode table, rows counted from 0; 1 for a row not listed. -/
  cycles     : List (Nat × Dword)
  /-- `ADDR_IME`, `ADDR_IE`, `ADDR_IF` (R520). -/
  addrIme    : PerCore Word
  addrIe     : PerCore Word
  addrIf     : PerCore Word
  /-- `REGIONS` (R84): the first row that holds an address decides; no row, Unmapped. -/
  regions    : PerCore (List Region)
  /-- `BIOS_SIZE` (R81). -/
  biosSize   : PerCore Nat
  /-- `OPEN_BUS` (R86), cut to the access width. -/
  openBus    : Word
  /-- `CLOCK_RATIO` (R550). -/
  clockRatio : PerCore Dword
  /-- The model's own: how deep the accesses of handlers may invoke further handlers (R117; log 10). -/
  nesting    : Nat
deriving DecidableEq, Repr

/-- The bytes of a page (R72). -/
def Parameters.pageSize (p : Parameters) : Nat := 2 ^ p.pageBits

/-- The pages of the address space (R34). -/
def Parameters.pageCount (p : Parameters) : Nat := 2 ^ (32 - p.pageBits)

/-- `REGIONS[A7]` (R84). -/
def regionsA7 : List Region :=
  [ { low := 0x00000000, high := 0x01000000, kind := .bios 0 },
    { low := 0x02000000, high := 0x03000000, kind := .ram { buf := .mainRam, offset := 0, size := 0x400000 } },
    { low := 0x03000000, high := 0x03800000,
      kind := .byMode (some { buf := .a7Wram, offset := 0, size := 0x10000 })
        (some { buf := .sharedWram, offset := 0, size := 0x4000 })
        (some { buf := .sharedWram, offset := 0x4000, size := 0x4000 })
        (some { buf := .sharedWram, offset := 0, size := 0x8000 }) },
    { low := 0x03800000, high := 0x04000000, kind := .ram { buf := .a7Wram, offset := 0, size := 0x10000 } },
    { low := 0x04000000, high := 0x05000000, kind := .mmio },
    { low := 0x06000000, high := 0x07000000, kind := .video },
    { low := 0x08000000, high := 0x0B000000, kind := .cartridge } ]

/-- `REGIONS[A9]`, after the TCM test (R84). -/
def regionsA9 : List Region :=
  [ { low := 0x02000000, high := 0x03000000, kind := .ram { buf := .mainRam, offset := 0, size := 0x400000 } },
    { low := 0x03000000, high := 0x04000000,
      kind := .byMode (some { buf := .sharedWram, offset := 0, size := 0x8000 })
        (some { buf := .sharedWram, offset := 0x4000, size := 0x4000 })
        (some { buf := .sharedWram, offset := 0, size := 0x4000 }) none },
    { low := 0x04000000, high := 0x05000000, kind := .mmio },
    { low := 0x05000000, high := 0x06000000, kind := .ram { buf := .palette, offset := 0, size := 0x800 } },
    { low := 0x06000000, high := 0x07000000, kind := .video },
    { low := 0x07000000, high := 0x08000000, kind := .ram { buf := .oam, offset := 0, size := 0x800 } },
    { low := 0x08000000, high := 0x0B000000, kind := .cartridge },
    { low := 0xFF000000, high := 0x100000000, kind := .bios 0xFFFF0000 } ]

/-- The defaults of R8, with which `State.reset` starts (log 19). -/
def Parameters.default : Parameters :=
  { pageBits := 12,
    bootSpSys := { a7 := 0x0380FD80, a9 := 0x03002F7C },
    bootSpIrq := { a7 := 0x0380FF80, a9 := 0x03003F80 },
    bootSpSvc := { a7 := 0x0380FFC0, a9 := 0x03003FC0 },
    cycles := [],
    addrIme := { a7 := 0x04000208, a9 := 0x04000208 },
    addrIe := { a7 := 0x04000210, a9 := 0x04000210 },
    addrIf := { a7 := 0x04000214, a9 := 0x04000214 },
    regions := { a7 := regionsA7, a9 := regionsA9 },
    biosSize := { a7 := 0x4000, a9 := 0x1000 },
    openBus := 0xFFFFFFFF,
    clockRatio := { a7 := 1, a9 := 1 },
    nesting := 64 }

end Sys2Proof.Machine

namespace Sys2Proof.Machine.Params

/-- `VEC_SWI` (R8, R501). -/
def vecSwi : Word := 0x08

/-- `VEC_IRQ` (R8, R501). -/
def vecIrq : Word := 0x18

/-- The exception base of core A9 with `cp15_control[13]` set (R505). -/
def highBase : Word := 0xFFFF0000

/-- The sizes of the tightly-coupled memories (R39). -/
def itcmSize : Nat := 0x8000
def dtcmSize : Nat := 0x4000

/-- `CPSR` after `reset()`: Supervisor mode, I = F = 1, T = 0, flags 0 (R45). -/
def resetCpsr : Word := 0x000000D3

/-- `cp15_control` after `reset()` of core A9 (R45, R570). -/
def resetCp15Control : Word := 0x00002078

end Sys2Proof.Machine.Params
end

