-- ==== Sys2Proof/Machine/State.lean ====
section
/-! DEFINITION. The state of the machine (spec/10_state.md R10), as plain data, its value after reset (R45), and the reasons a
step can stop. The inputs the spec leaves to the environment (handlers, callbacks, the owner's calls, the video mapping)
are plain data too (logs 1, 9, 10, 11). -/

namespace Sys2Proof.Machine

/-- The six register banks (R12). -/
inductive Bank where
  | usr
  | fiq
  | irq
  | svc
  | abt
  | und
deriving DecidableEq, Repr

/-- One word per bank: `bank_r13` and `bank_r14` (R12). -/
structure Banked where
  usr : Word
  fiq : Word
  irq : Word
  svc : Word
  abt : Word
  und : Word
deriving DecidableEq, Repr

/-- The saved status registers; the USR bank has none (R26, R27). -/
structure Spsrs where
  fiq : Word
  irq : Word
  svc : Word
  abt : Word
  und : Word
deriving DecidableEq, Repr

/-- The results of `Resolve` (R89). -/
inductive Target where
  | buffer (b : Buf) (offset : Nat)
  | mmio
  | fixed (value : Word)
  | ignore
  | unmapped
deriving DecidableEq, Repr

/-- One window of the video collaborator's mapping behind `VideoResolve` (R85): for core `core`, reads where `read`, writes
where `write`, the addresses from `low`, `size` of them, are the bytes of `vram` from `offset` on (log 9). -/
structure VideoWindow where
  core   : CoreId
  read   : Bool
  write  : Bool
  low    : Nat
  size   : Nat
  offset : Nat
deriving DecidableEq, Repr

/-- The region-control state `Resolve` depends on (R89, R38, R40). -/
structure RegionControl where
  wramMode    : BitVec 2
  cartOwner   : BitVec 1
  video       : List VideoWindow
  cp15Control : Word
  cp15Dtcm    : Word
  cp15Itcm    : Word
deriving DecidableEq, Repr

/-- One `update_memory_map` (R90): it gave the pages `low ≤ p < high` the entries that `ctl` asks for. The tables are the
list of the rebuilds, newest first (log 8). -/
structure Rebuild where
  low  : Nat
  high : Nat
  ctl  : RegionControl
deriving DecidableEq, Repr

/-- The interrupt controller's registers (R31, R520). -/
inductive IrqReg where
  | ime
  | ie
  | ifl
deriving DecidableEq, Repr

/-- Which half of a register an MMIO registration reaches (R531). -/
inductive Part where
  | whole
  | low
  | high
deriving DecidableEq, Repr

/-- The arithmetic of a peripheral's script, on 64-bit values; comparisons are unsigned and give 1 or 0, division by 0 gives 0. -/
inductive ValOp where
  | add
  | sub
  | mul
  | div
  | mod
  | and
  | or
  | xor
  | shl
  | shr
  | eq
  | lt
deriving DecidableEq, Repr

/-- A value of a peripheral's script: a constant, a field, a field whose number is computed, the value the access wrote, or
arithmetic (R102, log 10). -/
inductive Val where
  | const (v : Dword)
  | field (f : Nat)
  | fieldAt (i : Val)
  | written
  | bin (op : ValOp) (a b : Val)
deriving DecidableEq, Repr

/-- One operation of a peripheral's script: those of R6, and those on the peripheral's own fields and controls (R102, R40, R85;
log 10). `f` is the number of the field that takes an answer. -/
inductive Action where
  | setField (f : Val) (v : Val)
  | freeField (f : Val)
  | compute (k : Nat) (f : Val)
  | sendInterrupt (c : CoreId) (kind : BitVec 5)
  | halt (c : CoreId)
  | isHalted (c : CoreId) (f : Val)
  | currentTime (f : Val)
  | addEvent (delay id : Val)
  | cancelEvent (id : Val)
  | updateMemoryMap (c : CoreId) (low high : Val)
  | setWramMode (v : Val)
  | setCartOwner (v : Val)
  | clearVideo
  | mapVideo (c : CoreId) (read write : Bool) (low size offset : Val)
  | read (c : CoreId) (w : Width) (addr f : Val)
  | write (c : CoreId) (w : Width) (addr v : Val)
deriving DecidableEq, Repr

/-- The read half of a handler pair a peripheral registers: the three canned constructors (R100 to R102). -/
inductive CannedRead where
  | direct (f : Nat)
  | stub (sentinel : Word)
  | complex (result : Val)
deriving DecidableEq, Repr

/-- The write half of a handler pair a peripheral registers (R100 to R102). -/
inductive CannedWrite where
  | direct (f : Nat) (mask : Word)
  | stub
  | complex
deriving DecidableEq, Repr

/-- The closures of peripherals, complex handlers and event callbacks, as plain data (R102, R541; log 10): the operations in
turn, a choice, a bounded loop, and the two registrations, whose own closures stand inside (`readScript` and `writeScript`
serve complex halves). -/
inductive Script where
  | done
  | act (a : Action) (next : Script)
  | ite (c : Val) (yes no next : Script)
  | loop (count cond : Val) (body next : Script)
  | registerEvent (name : String) (callback : Script) (f : Val) (next : Script)
  | registerMmio (c : CoreId) (addr : Val) (w : Width) (read : CannedRead) (readScript : Script) (write : CannedWrite)
      (writeScript next : Script)
deriving DecidableEq, Repr

/-- The read half of a handler pair (R35, R97, R100 to R102); `irq` is the block's own (R531). -/
inductive ReadHandler where
  | irq (r : IrqReg) (p : Part)
  | direct (f : Nat)
  | stub (sentinel : Word)
  | complex (script : Script) (result : Val)
deriving DecidableEq, Repr

/-- The write half of a handler pair (R35, R98, R100 to R102). -/
inductive WriteHandler where
  | irq (r : IrqReg) (p : Part)
  | direct (f : Nat) (mask : Word)
  | stub
  | complex (script : Script)
deriving DecidableEq, Repr

/-- One entry of an MMIO registry (R35, R95). -/
structure Registration where
  addr  : Word
  width : Width
  read  : ReadHandler
  write : WriteHandler
deriving DecidableEq, Repr

/-- A registered event identity (R37, R541). -/
structure Event where
  id       : Nat
  name     : String
  callback : Script
deriving DecidableEq, Repr

/-- The calls the owner and the peripherals make on the block between bursts (R6, R550); field `f` takes the handle. -/
inductive OwnerCall where
  | run (c : CoreId) (target : Dword)
  | runEvents
  | tick (cycles : Dword)
  | reset (c : CoreId)
  | directBoot (c : CoreId) (entry : Word)
  | registerEvent (name : String) (callback : Script) (f : Nat)
  | registerMmio (c : CoreId) (r : Registration)
  | load (c : CoreId) (addr : Word) (bytes : List Byte)
  | act (script : Script)
deriving DecidableEq, Repr

/-- The state of one core (R10, the rows marked *per core*). -/
structure CoreState where
  /-- `R[0..15]` (R11). -/
  r            : Vector Word 16
  /-- `bank_r13` (R12). -/
  bankR13      : Banked
  /-- `bank_r14` (R12). -/
  bankR14      : Banked
  /-- `fiq_r8_12` (R12). -/
  fiqR8        : Vector Word 5
  /-- `nonfiq_r8_12` (R15). -/
  nonfiqR8     : Vector Word 5
  /-- `CPSR` (R20). -/
  cpsr         : Word
  /-- `SPSR` (R26). -/
  spsr         : Spsrs
  /-- `pipe[0]` (R28). -/
  pipe0        : Word
  /-- `pipe[1]` (R28). -/
  pipe1        : Word
  /-- `halted` (R29). -/
  halted       : Bool
  /-- `timestamp` (R30). -/
  timestamp    : Dword
  /-- `IME` (R31). -/
  ime          : Bool
  /-- `IE` (R31). -/
  ie           : Word
  /-- `IF` (R31). -/
  ifl          : Word
  /-- `irq_latch` (R31). -/
  irqLatch     : Bool
  /-- `booted` (R33). -/
  booted       : Bool
  /-- `unknown_log`, oldest first (R32). -/
  unknownLog   : List (Word × Word)
  /-- `read_table` and `write_table` (R34), as the rebuilds that made them. -/
  pageTable    : List Rebuild
  /-- `mmio` (R35). -/
  mmio         : List Registration
deriving DecidableEq, Repr

/-- The backing buffers (R36, R39), each in the canonical form of Machine/Memory.lean. -/
structure Buffers where
  biosA7     : List Host.Cell
  biosA9     : List Host.Cell
  mainRam    : List Host.Cell
  sharedWram : List Host.Cell
  a7Wram     : List Host.Cell
  vram       : List Host.Cell
  palette    : List Host.Cell
  oam        : List Host.Cell
  itcm       : List Host.Cell
  dtcm       : List Host.Cell
deriving DecidableEq, Repr

/-- Why the machine stops for good (R510, R511). Every constructor is the spec's own; stopping there is safe. -/
inductive Fault where
  /-- Raised by a memory access that resolves to nothing or to an unregistered MMIO pair (R87, R97 to R99). Safe. -/
  | unimplementedAccess (core : CoreId) (addr : Word) (width : Width) (dir : Dir)
  /-- Raised by a read or write of the SPSR in User or System mode (R27). Safe. -/
  | invalidPsrAccess (mode : BitVec 5)
  /-- Raised by `switch_mode` given a value that is not a mode (R14). Safe. -/
  | invalidMode (value : BitVec 5)
  /-- Raised by construction without a boot ROM image (R572). Safe. -/
  | missingBios (core : CoreId)
deriving DecidableEq, Repr

/-- Where the model has no meaning to give. -/
inductive Refusal where
  /-- Raised by an arm of `exec` that has no meaning yet. Safe. -/
  | notModelled (mnemonic : String)
  /-- Raised by an MMIO handler whose own accesses invoke handlers, past `Parameters.nesting` levels (R117 lets a
  peripheral's access happen "never inside another access"; log 10). Safe. -/
  | nestedMmioAccess
  /-- Raised by `run_events` firing a handle that `register_event` never returned (R541, R545; log 11). Safe. -/
  | unregisteredEvent (id : Nat)
deriving DecidableEq, Repr

/-- The state of the machine (R10). -/
structure State where
  /-- The implementation parameters R8 marks OPEN; no step changes them (log 19). -/
  par         : Parameters
  /-- Core A7. -/
  a7          : CoreState
  /-- Core A9. -/
  a9          : CoreState
  /-- `wram_mode`, `cart_owner`, the video mapping and the CP15 registers of core A9 (R38, R40, R89). -/
  ctl         : RegionControl
  /-- The backing buffers (R36, R39). -/
  buf         : Buffers
  /-- The peripherals' own fields, those that direct handlers back among them (R100, R102); an unlisted field is 0 (log 10). -/
  fields      : List (Nat × Dword)
  /-- Scheduler `current_time` (R37). -/
  currentTime : Dword
  /-- Scheduler `queue`, ascending in time (R37). -/
  queue       : List (Dword × Nat)
  /-- Scheduler `events` (R37). -/
  events      : List Event
  /-- Scheduler `next_id` (R37). -/
  nextId      : Nat
  /-- `fault` (R32). -/
  fault       : Option Fault
  /-- The model's own: the core the current step belongs to (log 1). -/
  running     : CoreId
  /-- The model's own: the local flag `branched` of R173 (log 1). -/
  branched    : Bool
  /-- The model's own: the owner's pending calls, the one in progress first (log 1). -/
  owner       : List OwnerCall
  /-- The model's own: how many free values have been drawn (log 17). -/
  freeCount   : Nat
deriving DecidableEq, Repr

/-- One value in every bank. -/
def Banked.all (v : Word) : Banked := { usr := v, fiq := v, irq := v, svc := v, abt := v, und := v }

/-- One value in every SPSR. -/
def Spsrs.all (v : Word) : Spsrs := { fiq := v, irq := v, svc := v, abt := v, und := v }

/-- Buffers of zero bytes: nothing is listed (R45). -/
def Buffers.zero : Buffers :=
  { biosA7 := [], biosA9 := [], mainRam := [], sharedWram := [], a7Wram := [], vram := [], palette := [], oam := [],
    itcm := [], dtcm := [] }

/-- The region-control inputs at construction (R45). -/
def RegionControl.reset : RegionControl :=
  { wramMode := 0, cartOwner := 0, video := [], cp15Control := Params.resetCp15Control, cp15Dtcm := 0, cp15Itcm := 0 }

/-- The registrations the block makes itself in core `c`'s registry (R531). -/
def blockRegistrations (p : Parameters) (c : CoreId) : List Registration :=
  [ { addr := p.addrIme.get c, width := .w32, read := .irq .ime .whole, write := .irq .ime .whole },
    { addr := p.addrIme.get c, width := .w16, read := .irq .ime .whole, write := .irq .ime .whole },
    { addr := p.addrIme.get c, width := .w8, read := .irq .ime .whole, write := .irq .ime .whole },
    { addr := p.addrIe.get c, width := .w32, read := .irq .ie .whole, write := .irq .ie .whole },
    { addr := p.addrIe.get c, width := .w16, read := .irq .ie .low, write := .irq .ie .low },
    { addr := p.addrIe.get c + 2, width := .w16, read := .irq .ie .high, write := .irq .ie .high },
    { addr := p.addrIf.get c, width := .w32, read := .irq .ifl .whole, write := .irq .ifl .whole },
    { addr := p.addrIf.get c, width := .w16, read := .irq .ifl .low, write := .irq .ifl .low },
    { addr := p.addrIf.get c + 2, width := .w16, read := .irq .ifl .high, write := .irq .ifl .high } ]

/-- A core as `reset()` leaves it (R45, R570), with no page table and no registry. -/
def CoreState.cleared : CoreState :=
  { r := Vector.replicate 16 0, bankR13 := .all 0, bankR14 := .all 0, fiqR8 := Vector.replicate 5 0,
    nonfiqR8 := Vector.replicate 5 0, cpsr := Params.resetCpsr, spsr := .all 0, pipe0 := 0, pipe1 := 0, halted := false,
    timestamp := 0, ime := false, ie := 0, ifl := 0, irqLatch := false, booted := false, unknownLog := [],
    pageTable := [], mmio := [] }

/-- A core after construction and `reset()` (R45): tables rebuilt for the whole space, the block's registrations made. -/
def CoreState.initial (p : Parameters) (c : CoreId) : CoreState :=
  { CoreState.cleared with pageTable := [{ low := 0, high := p.pageCount, ctl := .reset }], mmio := blockRegistrations p c }

/-- The machine right after construction and reset of both cores (R45, R572), with boot ROM images of zero bytes (log 5). -/
def State.initial (p : Parameters) : State :=
  { par := p, a7 := .initial p .a7, a9 := .initial p .a9, ctl := .reset, buf := .zero, fields := [], currentTime := 0,
    queue := [], events := [], nextId := 0, fault := none, running := .a9, branched := false, owner := [], freeCount := 0 }

/-- The machine after reset, with the parameters at their defaults (R8, R45). -/
def State.reset : State := .initial .default

end Sys2Proof.Machine
end

