-- ==== Sys2Proof/Machine/Memory.lean ====
section
/-! DEFINITION. Byte arrays as lists of (offset, byte) pairs in one canonical form: offsets strictly rising, no entry zero; an
unlisted offset reads 0 (spec/10_state.md R45: all arrays are zero at construction; log 6, log 7). The same operations hold
the backing fields of MMIO handlers. Little-endian widths are built here, once (spec/20_memory.md R72 to R74). -/

namespace Sys2Proof.Machine

/-- The value at `a`; an unlisted place reads 0. -/
def Memory.get {n : Nat} : List (Nat × BitVec n) → Nat → BitVec n
  | [], _ => 0
  | (k, v) :: rest, a => if k = a then v else Memory.get rest a

/-- Write `v` at `a`, keeping the canonical form: writing 0 removes the entry. -/
def Memory.put {n : Nat} : List (Nat × BitVec n) → Nat → BitVec n → List (Nat × BitVec n)
  | [], a, v => if v = 0 then [] else [(a, v)]
  | (k, w) :: rest, a, v =>
    if a < k then (if v = 0 then (k, w) :: rest else (a, v) :: (k, w) :: rest)
    else if a = k then (if v = 0 then rest else (a, v) :: rest)
    else (k, w) :: Memory.put rest a v

/-- The canonical form: places strictly rising, no listed zero. -/
abbrev Memory.wf {n : Nat} (m : List (Nat × BitVec n)) : Prop :=
  m.Pairwise (fun x y => x.1 < y.1) ∧ ∀ x ∈ m, x.2 ≠ 0

/-- The bytes of an access width (R71). -/
def widthBytes : Width → Nat
  | .w8 => 1
  | .w16 => 2
  | .w32 => 4

/-- "align the address down to the access width" (R72). -/
def alignDown (a : Word) (w : Width) : Word :=
  match w with
  | .w8 => a
  | .w16 => a &&& 0xFFFFFFFE
  | .w32 => a &&& 0xFFFFFFFC

/-- A value cut to the access width, zero-extended again. -/
def truncate (w : Width) (v : Word) : Word :=
  match w with
  | .w8 => v &&& 0xFF
  | .w16 => v &&& 0xFFFF
  | .w32 => v

/-- Byte `i` of a word, 0 the least significant (R74). -/
def byteOf (v : Word) (i : Nat) : Byte := v.extractLsb' (8 * i) 8

/-- The little-endian value of the bytes from `o` (R72, R74), zero-extended to a word. -/
def readBytes (m : List Host.Cell) (o : Nat) (w : Width) : Word :=
  match w with
  | .w8 => (Memory.get m o).setWidth 32
  | .w16 => (Memory.get m (o + 1) ++ Memory.get m o).setWidth 32
  | .w32 => Memory.get m (o + 3) ++ Memory.get m (o + 2) ++ Memory.get m (o + 1) ++ Memory.get m o

/-- Store the low bytes of `v` little-endian from `o` (R73, R74). -/
def writeBytes (m : List Host.Cell) (o : Nat) (w : Width) (v : Word) : List Host.Cell :=
  match w with
  | .w8 => Memory.put m o (byteOf v 0)
  | .w16 => Memory.put (Memory.put m o (byteOf v 0)) (o + 1) (byteOf v 1)
  | .w32 =>
    Memory.put (Memory.put (Memory.put (Memory.put m o (byteOf v 0)) (o + 1) (byteOf v 1)) (o + 2) (byteOf v 2)) (o + 3)
      (byteOf v 3)

/-- A list of bytes from offset `o` on: a boot ROM image (R572). -/
def Memory.ofBytes (o : Nat) : List Byte → List Host.Cell
  | [] => []
  | b :: rest => if b = 0 then Memory.ofBytes (o + 1) rest else (o, b) :: Memory.ofBytes (o + 1) rest

/-- The cells of a buffer (R36, R39). -/
def Buffers.cells (bs : Buffers) : Buf → List Host.Cell
  | .biosA7 => bs.biosA7
  | .biosA9 => bs.biosA9
  | .mainRam => bs.mainRam
  | .sharedWram => bs.sharedWram
  | .a7Wram => bs.a7Wram
  | .vram => bs.vram
  | .palette => bs.palette
  | .oam => bs.oam
  | .itcm => bs.itcm
  | .dtcm => bs.dtcm

/-- The buffers with the cells of one replaced. -/
def Buffers.setCells (bs : Buffers) (b : Buf) (m : List Host.Cell) : Buffers :=
  match b with
  | .biosA7 => { bs with biosA7 := m }
  | .biosA9 => { bs with biosA9 := m }
  | .mainRam => { bs with mainRam := m }
  | .sharedWram => { bs with sharedWram := m }
  | .a7Wram => { bs with a7Wram := m }
  | .vram => { bs with vram := m }
  | .palette => { bs with palette := m }
  | .oam => { bs with oam := m }
  | .itcm => { bs with itcm := m }
  | .dtcm => { bs with dtcm := m }

/-- Every buffer is in its canonical form. -/
abbrev Buffers.wf (bs : Buffers) : Prop :=
  Memory.wf bs.biosA7 ∧ Memory.wf bs.biosA9 ∧ Memory.wf bs.mainRam ∧ Memory.wf bs.sharedWram ∧ Memory.wf bs.a7Wram ∧
  Memory.wf bs.vram ∧ Memory.wf bs.palette ∧ Memory.wf bs.oam ∧ Memory.wf bs.itcm ∧ Memory.wf bs.dtcm

/-- One byte of a buffer: what every statement about memory is read through. -/
def State.byteAt (s : State) (b : Buf) (o : Nat) : Byte := Memory.get (s.buf.cells b) o

end Sys2Proof.Machine
end

