-- ==== Sys2Proof/Machine/Resolve.lean ====
section
/-! DEFINITION. `Resolve` and the page tables (spec/20_memory.md R76 to R94): region tables R84, video R85, cartridge R86, TCM
R38 and R88, page entries R91. -/

namespace Sys2Proof.Machine

/-- `cp15_control[16]`: DTCM enable; `[17]`: load mode; `[18]`: ITCM enable; `[19]`: load mode (R38). -/
def RegionControl.controlBit (ctl : RegionControl) (i : Nat) : Bool := ctl.cp15Control.getLsbD i

/-- The ITCM answers accesses in this direction (R38). -/
def itcmEnabled (ctl : RegionControl) : Dir → Bool
  | .read => ctl.controlBit 18 && !ctl.controlBit 19
  | .write => ctl.controlBit 18

/-- The DTCM answers accesses in this direction (R38). -/
def dtcmEnabled (ctl : RegionControl) : Dir → Bool
  | .read => ctl.controlBit 16 && !ctl.controlBit 17
  | .write => ctl.controlBit 16

/-- A window size: 512 << N with N in bits 5:1 (R38). -/
def tcmWindow (reg : Word) : Nat := 512 * 2 ^ (reg.extractLsb' 1 5).toNat

/-- The DTCM base: bits 31:12 (R38). -/
def dtcmBase (ctl : RegionControl) : Nat := (ctl.cp15Dtcm &&& 0xFFFFF000).toNat

/-- A window maps accesses in this direction (R85). -/
def VideoWindow.maps (w : VideoWindow) : Dir → Bool
  | .read => w.read
  | .write => w.write

/-- The window of the video mapping that holds address `a`, the first listed winning (R85, log 9). -/
def findWindow (ws : List VideoWindow) (c : CoreId) (a : Nat) (d : Dir) : Option VideoWindow :=
  ws.find? fun w => w.core == c && w.maps d && decide (w.low ≤ a) && decide (a < w.low + w.size)

/-- `VideoResolve(c, a, d)` (R85); with no window, the default: Unmapped. -/
def videoResolve (ctl : RegionControl) (c : CoreId) (a : Nat) (d : Dir) : Target :=
  match findWindow ctl.video c a d with
  | some w => .buffer .vram (w.offset + (a - w.low))
  | none => .unmapped

/-- The cartridge slot (R86): the owner reads the open bus, the other core 0; writes are ignored. -/
def cartridgeSlot (openBus : Word) (ctl : RegionControl) (c : CoreId) : Dir → Target
  | .read => if (c = .a9 ∧ ctl.cartOwner = 0) ∨ (c = .a7 ∧ ctl.cartOwner = 1) then .fixed openBus else .fixed 0
  | .write => .ignore

/-- The boot ROM of a core. -/
def biosBuf : CoreId → Buf
  | .a7 => .biosA7
  | .a9 => .biosA9

/-- A boot ROM of `size` bytes at `base`, seen at byte `a` of its region (R81, R84). -/
def biosRegion (b : Buf) (base size a : Nat) : Dir → Target
  | .read => if base ≤ a ∧ a < base + size then .buffer b (a - base) else .unmapped
  | .write => .ignore

/-- Address `a` in a mirrored run of a buffer (R84). -/
def Mirror.target (m : Mirror) (a : Nat) : Target := .buffer m.buf (m.offset + a % m.size)

/-- The layout `wram_mode` selects (R83). -/
def layoutOf (mode : BitVec 2) (m0 m1 m2 m3 : Option Mirror) : Option Mirror :=
  match mode.toNat with
  | 0 => m0
  | 1 => m1
  | 2 => m2
  | _ => m3

/-- What a region answers (R81 to R86). -/
def RegionKind.target (k : RegionKind) (par : Parameters) (ctl : RegionControl) (c : CoreId) (a : Nat) (d : Dir) : Target :=
  match k with
  | .bios base => biosRegion (biosBuf c) base (par.biosSize.get c) a d
  | .ram m => m.target a
  | .byMode m0 m1 m2 m3 =>
    match layoutOf ctl.wramMode m0 m1 m2 m3 with
    | some m => m.target a
    | none => .unmapped
  | .mmio => .mmio
  | .video => videoResolve ctl c a d
  | .cartridge => cartridgeSlot par.openBus ctl c d

/-- The row of a region table that holds address `a` (R84). -/
def findRegion (rs : List Region) (a : Nat) : Option Region := rs.find? fun r => decide (r.low ≤ a) && decide (a < r.high)

/-- The lookup in `REGIONS[c]` (R84); `a` is the address as a number. -/
def regionAt (par : Parameters) (ctl : RegionControl) (c : CoreId) (a : Nat) (d : Dir) : Target :=
  match findRegion (par.regions.get c) a with
  | some r => r.kind.target par ctl c a d
  | none => .unmapped

/-- `Resolve(c, a, d)` (R88, R89): on A9 the ITCM first, then the DTCM, then the region table. -/
def resolveAt (par : Parameters) (ctl : RegionControl) (c : CoreId) (a : Nat) (d : Dir) : Target :=
  match c with
  | .a7 => regionAt par ctl .a7 a d
  | .a9 =>
    if itcmEnabled ctl d = true ∧ a < tcmWindow ctl.cp15Itcm then .buffer .itcm (a % Params.itcmSize)
    else if dtcmEnabled ctl d = true ∧ dtcmBase ctl ≤ a ∧ a < dtcmBase ctl + tcmWindow ctl.cp15Dtcm then
      .buffer .dtcm ((a - dtcmBase ctl) % Params.dtcmSize)
    else regionAt par ctl .a9 a d

/-- `Resolve` on a 32-bit address (R89). -/
def resolve (par : Parameters) (ctl : RegionControl) (c : CoreId) (a : Word) (d : Dir) : Target :=
  resolveAt par ctl c a.toNat d

/-- Every bound and mirror of a mapping is a multiple of 512 bytes, as those of R84 and the TCM windows are. -/
def evenMirror (m : Mirror) : Bool := m.size % 512 == 0
def evenOption (m : Option Mirror) : Bool := m.all evenMirror
def RegionKind.even (k : RegionKind) : Bool :=
  match k with
  | .bios base => base % 512 == 0
  | .ram m => evenMirror m
  | .byMode m0 m1 m2 m3 => evenOption m0 && evenOption m1 && evenOption m2 && evenOption m3
  | .mmio => true
  | .video => true
  | .cartridge => true
def Region.even (r : Region) : Bool := r.low % 512 == 0 && r.high % 512 == 0 && r.kind.even
def VideoWindow.even (w : VideoWindow) : Bool := w.low % 512 == 0 && w.size % 512 == 0
def evenMap (par : Parameters) (ctl : RegionControl) (c : CoreId) : Bool :=
  (par.regions.get c).all Region.even && par.biosSize.get c % 512 == 0 && ctl.video.all VideoWindow.even

/-- How many bytes `Resolve` is sure to translate alike (log 8): 512 of an even mapping, or a smaller page; else 1. -/
def granule (par : Parameters) (ctl : RegionControl) (c : CoreId) : Nat :=
  if evenMap par ctl c then 2 ^ min 9 par.pageBits else 1

/-- `Entry(c, p, d)` (R91): the buffer the whole page lies in, or null. A page is uniform when its granules line up (log 8). -/
def pageEntry (par : Parameters) (ctl : RegionControl) (c : CoreId) (p : Nat) (d : Dir) : Option (Buf × Nat) :=
  match resolveAt par ctl c (p * par.pageSize) d with
  | .buffer b o =>
    let g := granule par ctl c
    if (List.range (par.pageSize / g)).all fun k => resolveAt par ctl c (p * par.pageSize + k * g) d == .buffer b (o + k * g)
    then some (b, o) else none
  | _ => none

/-- `read_table[p]` or `write_table[p]` (R34): the entry the newest rebuild that covered `p` gave it. -/
def tableEntry (par : Parameters) (t : List Rebuild) (c : CoreId) (p : Nat) (d : Dir) : Option (Buf × Nat) :=
  match t.find? fun r => decide (r.low ≤ p) && decide (p < r.high) with
  | some r => pageEntry par r.ctl c p d
  | none => none

/-- `update_memory_map(low, high)` on one core's tables (R90): bounds rounded outward to pages; a rebuild of the whole space
leaves nothing of the older ones. -/
def rebuild (par : Parameters) (t : List Rebuild) (ctl : RegionControl) (low high : Nat) : List Rebuild :=
  let lo := low / par.pageSize
  let hi := min ((high + par.pageSize - 1) / par.pageSize) par.pageCount
  if hi ≤ lo then t
  else if lo = 0 ∧ hi = par.pageCount then [{ low := lo, high := hi, ctl := ctl }]
  else { low := lo, high := hi, ctl := ctl } :: t

end Sys2Proof.Machine
end

