-- ==== Sys2Proof/Machine/Access.lean ====
section
/-! DEFINITION. Reading and writing the parts of the state: the cores, the buffers, the live registers, the CPSR fields, the
interrupt controller (spec/60_exceptions.md R520 to R531) and the scheduler (R540 to R545). -/

namespace Sys2Proof.Machine

/-- What an operation answers: a value, a fault or a refusal. -/
abbrev Res (α : Type) := Host.Outcome α Fault Refusal

/-- Go on with the value; a fault ends the step at once (R9, R184). -/
def Res.bind {α β : Type} (x : Res α) (f : α → Res β) : Res β :=
  match x with
  | .next a => f a
  | .fault e => .fault e
  | .refused e => .refused e

/-- The state of core `c`. -/
def State.core (s : State) : CoreId → CoreState
  | .a7 => s.a7
  | .a9 => s.a9

/-- The state with core `c` replaced. -/
def State.setCore (s : State) (c : CoreId) (k : CoreState) : State :=
  match c with
  | .a7 => { s with a7 := k }
  | .a9 => { s with a9 := k }

/-- The executing core. -/
def State.cur (s : State) : CoreState := s.core s.running

/-- The state with the executing core replaced. -/
def State.setCur (s : State) (k : CoreState) : State := s.setCore s.running k

/-- The state with the cells of one buffer replaced. -/
def State.setCells (s : State) (b : Buf) (m : List Host.Cell) : State := { s with buf := s.buf.setCells b m }

/-- A field of the peripherals (R100); an unlisted field is 0. -/
def State.field (s : State) (f : Nat) : Dword := Memory.get s.fields f

/-- Set a field of the peripherals (R100). -/
def State.setField (s : State) (f : Nat) (v : Dword) : State := { s with fields := Memory.put s.fields f v }

/-- A free value, and the state with the counter advanced (log 17). -/
def State.draw (s : State) : Word × State := (Config.freeWord s.freeCount, { s with freeCount := s.freeCount + 1 })

/-- `x[i]`: the live register `i` (R11). -/
def CoreState.reg (k : CoreState) (i : BitVec 4) : Word := k.r.get i.toFin

/-- `x[i] <- v`, the stored register alone, no flush (R11). -/
def CoreState.setReg (k : CoreState) (i : BitVec 4) (v : Word) : CoreState := { k with r := k.r.set i.toNat v }

/-- The stored `R[15]` (R19). -/
def CoreState.pc (k : CoreState) : Word := k.reg 15

/-- A word with bit `i` set to `b`. -/
def setBit (v : Word) (i : Nat) (b : Bool) : Word :=
  if b then v ||| (1#32 <<< i) else v &&& ~~~(1#32 <<< i)

/-- `CPSR.N` (R20). -/
def CoreState.n (k : CoreState) : Bool := k.cpsr.getLsbD 31
/-- `CPSR.Z` (R20). -/
def CoreState.z (k : CoreState) : Bool := k.cpsr.getLsbD 30
/-- `CPSR.C` (R20). -/
def CoreState.c (k : CoreState) : Bool := k.cpsr.getLsbD 29
/-- `CPSR.V` (R20). -/
def CoreState.v (k : CoreState) : Bool := k.cpsr.getLsbD 28
/-- `CPSR.Q` (R20). -/
def CoreState.q (k : CoreState) : Bool := k.cpsr.getLsbD 27
/-- `CPSR.I` (R20). -/
def CoreState.iBit (k : CoreState) : Bool := k.cpsr.getLsbD 7
/-- `CPSR.T` (R20). -/
def CoreState.t (k : CoreState) : Bool := k.cpsr.getLsbD 5
/-- `CPSR.M` (R20). -/
def CoreState.mode (k : CoreState) : BitVec 5 := k.cpsr.extractLsb' 0 5

/-- `CPSR.T <- b` (R20). -/
def CoreState.setT (k : CoreState) (b : Bool) : CoreState := { k with cpsr := setBit k.cpsr 5 b }

/-- `x[i]` of the executing core. -/
def State.x (s : State) (i : BitVec 4) : Word := s.cur.reg i

/-- The stored register of the executing core, no flush. -/
def State.setX (s : State) (i : BitVec 4) (v : Word) : State := s.setCur (s.cur.setReg i v)

/-- `update_irq_latch()` (R31). -/
def CoreState.updateLatch (k : CoreState) : CoreState := { k with irqLatch := k.ime && (k.ie &&& k.ifl) != 0 }

/-- `send_interrupt(c, k)` (R523): the request bit; a wake-up if enabled and (IME or ARMv4); the latch. -/
def sendInterrupt (c : CoreId) (kind : BitVec 5) (s : State) : State :=
  let k := s.core c
  let ifl := k.ifl ||| (1#32 <<< kind.toNat)
  let wakes := k.ie.getLsbD kind.toNat && (k.ime || c == .a7)
  s.setCore c { k with ifl := ifl, halted := k.halted && !wakes }.updateLatch

/-- `halt(c)` (R524). -/
def halt (c : CoreId) (s : State) : State := s.setCore c { s.core c with halted := true }

/-- The value a read of an interrupt register gives (R520, R531). -/
def irqRead (k : CoreState) (r : IrqReg) (p : Part) : Word :=
  let whole :=
    match r with
    | .ime => if k.ime then 1 else 0
    | .ie => k.ie
    | .ifl => k.ifl
  match p with
  | .whole => whole
  | .low => whole &&& 0xFFFF
  | .high => whole >>> 16

/-- A write of an interrupt register (R526, R527, R531): `IF` is write-1-to-clear; then the latch. -/
def irqWrite (k : CoreState) (r : IrqReg) (p : Part) (v : Word) : CoreState :=
  let mask : Word :=
    match p with
    | .whole => 0xFFFFFFFF
    | .low => 0x0000FFFF
    | .high => 0xFFFF0000
  let bits : Word :=
    match p with
    | .high => v <<< 16
    | _ => v
  match r with
  | .ime => { k with ime := v.getLsbD 0 }.updateLatch
  | .ie => { k with ie := (k.ie &&& ~~~mask) ||| (bits &&& mask) }.updateLatch
  | .ifl => { k with ifl := k.ifl &&& ~~~(bits &&& mask) }.updateLatch

/-- Insert after every entry whose time is not later: the upper bound of R542. -/
def insertEvent (q : List (Dword × Nat)) (t : Dword) (id : Nat) : List (Dword × Nat) :=
  match q with
  | [] => [(t, id)]
  | e :: rest => if t.toNat < e.1.toNat then (t, id) :: e :: rest else e :: insertEvent rest t id

/-- `add_event(delay, handle)` (R542). -/
def addEvent (delay : Dword) (id : Nat) (s : State) : State :=
  { s with queue := insertEvent s.queue (s.currentTime + delay) id }

/-- `cancel_event(handle)` (R543). -/
def cancelEvent (id : Nat) (s : State) : State := { s with queue := s.queue.filter fun e => e.2 != id }

/-- `register_event(name, callback)` (R541): the handle, which is the old `next_id`, and the state with the identity. -/
def registerEvent (name : String) (callback : Script) (s : State) : Nat × State :=
  (s.nextId,
    { s with events := s.events ++ [{ id := s.nextId, name := name, callback := callback }], nextId := s.nextId + 1 })

/-- `tick(cycles)` (R544). -/
def tick (cycles : Dword) (s : State) : State := { s with currentTime := s.currentTime + cycles }

/-- `update_memory_map(c, low, high)` (R90). -/
def updateMemoryMap (c : CoreId) (low high : Nat) (s : State) : State :=
  s.setCore c { s.core c with pageTable := rebuild s.par (s.core c).pageTable s.ctl low high }

/-- `register_mmio` (R96): registering a key twice replaces the earlier pair. -/
def registerMmio (c : CoreId) (r : Registration) (s : State) : State :=
  let k := s.core c
  s.setCore c { k with mmio := r :: k.mmio.filter fun e => !(e.addr == r.addr && e.width == r.width) }

/-- The handler a canned read half stands for, with the closure of a complex one (R100 to R102). -/
def CannedRead.handler (r : CannedRead) (script : Script) : ReadHandler :=
  match r with
  | .direct f => .direct f
  | .stub v => .stub v
  | .complex result => .complex script result

/-- The handler a canned write half stands for, with the closure of a complex one (R100 to R102). -/
def CannedWrite.handler (w : CannedWrite) (script : Script) : WriteHandler :=
  match w with
  | .direct f mask => .direct f mask
  | .stub => .stub
  | .complex => .complex script

/-- The registration under a key (R95). -/
def findMmio (m : List Registration) (a : Word) (w : Width) : Option Registration :=
  m.find? fun e => e.addr == a && e.width == w

end Sys2Proof.Machine
end

