-- ==== Sys2Proof/Machine/Bus.lean ====
section
/-! DEFINITION. `MemRead` and `MemWrite` (spec/20_memory.md R71 to R73, R80), the MMIO registry's accesses (R97 to R102) and the
closures of handlers, callbacks and peripheral calls (R102, R117, R541; log 10). -/

namespace Sys2Proof.Machine

/-- A read of a core's memory system: core, address, width; the value is zero-extended. -/
abbrev ReadFn := CoreId → Word → Width → State → Res (Word × State)

/-- A write of a core's memory system. -/
abbrev WriteFn := CoreId → Word → Width → Word → State → Res State

/-- Where an access goes: the page table's entry if it has one, else `Resolve` (R72, R73, R76, R80). -/
def locate (c : CoreId) (a : Word) (d : Dir) (s : State) : Target :=
  match tableEntry s.par (s.core c).pageTable c (a.toNat / s.par.pageSize) d with
  | some (b, base) => .buffer b (base + a.toNat % s.par.pageSize)
  | none => resolve s.par s.ctl c a d

/-- The arithmetic of scripts (log 10). -/
def ValOp.eval (op : ValOp) (a b : Dword) : Dword :=
  match op with
  | .add => a + b
  | .sub => a - b
  | .mul => a * b
  | .div => a / b
  | .mod => a % b
  | .and => a &&& b
  | .or => a ||| b
  | .xor => a ^^^ b
  | .shl => a <<< b.toNat
  | .shr => a >>> b.toNat
  | .eq => if a = b then 1 else 0
  | .lt => if a.toNat < b.toNat then 1 else 0

/-- The value an expression of a script has; `written` is the value the access wrote. -/
def evalVal (written : Dword) (s : State) : Val → Dword
  | .const w => w
  | .field f => s.field f
  | .fieldAt i => s.field (evalVal written s i).toNat
  | .written => written
  | .bin op a b => op.eval (evalVal written s a) (evalVal written s b)

/-- The number of the field an expression names. -/
def fieldOf (written : Dword) (s : State) (f : Val) : Nat := (evalVal written s f).toNat

/-- The 32-bit value of an expression: an address, or a value to store. -/
def wordOf (written : Dword) (s : State) (v : Val) : Word := (evalVal written s v).setWidth 32

/-- One operation of a script (R6, R102). -/
def runAction (rd : ReadFn) (wr : WriteFn) (written : Dword) (a : Action) (s : State) : Res State :=
  match a with
  | .setField f v => .next (s.setField (fieldOf written s f) (evalVal written s v))
  | .freeField f => .next (s.draw.2.setField (fieldOf written s f) (s.draw.1.setWidth 64))
  | .compute k f => .next (s.setField (fieldOf written s f) (Config.compute k s.fields written))
  | .sendInterrupt c kind => .next (sendInterrupt c kind s)
  | .halt c => .next (halt c s)
  | .isHalted c f => .next (s.setField (fieldOf written s f) (if (s.core c).halted then 1 else 0))
  | .currentTime f => .next (s.setField (fieldOf written s f) s.currentTime)
  | .addEvent delay id => .next (addEvent (evalVal written s delay) (evalVal written s id).toNat s)
  | .cancelEvent id => .next (cancelEvent (evalVal written s id).toNat s)
  | .updateMemoryMap c low high =>
    .next (updateMemoryMap c (evalVal written s low).toNat (evalVal written s high).toNat s)
  | .setWramMode v => .next { s with ctl := { s.ctl with wramMode := (evalVal written s v).extractLsb' 0 2 } }
  | .setCartOwner v => .next { s with ctl := { s.ctl with cartOwner := (evalVal written s v).extractLsb' 0 1 } }
  | .clearVideo => .next { s with ctl := { s.ctl with video := [] } }
  | .mapVideo c r w low size offset =>
    let window : VideoWindow :=
      { core := c, read := r, write := w, low := (evalVal written s low).toNat, size := (evalVal written s size).toNat,
        offset := (evalVal written s offset).toNat }
    .next { s with ctl := { s.ctl with video := window :: s.ctl.video } }
  | .read c w addr f =>
    Res.bind (rd c (wordOf written s addr) w s) fun p => .next (p.2.setField (fieldOf written p.2 f) (p.1.setWidth 64))
  | .write c w addr v => wr c (wordOf written s addr) w (wordOf written s v) s

/-- A loop of a script: `body`, at most `n` times, while `go` holds. -/
def iterate (go : State → Bool) (body : State → Res State) : Nat → State → Res State
  | 0, s => .next s
  | n + 1, s => if go s then Res.bind (body s) (iterate go body n) else .next s

/-- A closure, from its first operation on (R102, R541): `ite` chooses by a value other than 0, `loop` runs its body at most
`count` times while a value is other than 0, a registration's answer goes to a field. -/
def runClosure (rd : ReadFn) (wr : WriteFn) (written : Dword) : Script → State → Res State
  | .done, s => .next s
  | .act a next, s => Res.bind (runAction rd wr written a s) (runClosure rd wr written next)
  | .ite c yes no next, s =>
    Res.bind (if evalVal written s c = 0 then runClosure rd wr written no s else runClosure rd wr written yes s)
      (runClosure rd wr written next)
  | .loop count cond body next, s =>
    Res.bind (iterate (fun t => evalVal written t cond != 0) (runClosure rd wr written body) (evalVal written s count).toNat s)
      (runClosure rd wr written next)
  | .registerEvent name callback f next, s =>
    let r := registerEvent name callback s
    runClosure rd wr written next (r.2.setField (fieldOf written s f) (BitVec.ofNat 64 r.1))
  | .registerMmio c addr w read readScript write writeScript next, s =>
    runClosure rd wr written next (registerMmio c
      { addr := wordOf written s addr, width := w, read := read.handler readScript, write := write.handler writeScript } s)

/-- `MmioRead` (R97): the value cut to the width. -/
def mmioRead (script : Dword → Script → State → Res State) (c : CoreId) (a : Word) (w : Width) (s : State) :
    Res (Word × State) :=
  match findMmio (s.core c).mmio a w with
  | none => .fault (.unimplementedAccess c a w .read)
  | some e =>
    match e.read with
    | .irq r p => .next (truncate w (irqRead (s.core c) r p), s)
    | .direct f => .next (truncate w ((s.field f).setWidth 32), s)
    | .stub v => .next (truncate w v, s)
    | .complex acts result => Res.bind (script 0 acts s) fun t => .next (truncate w (wordOf 0 t result), t)

/-- `MmioWrite` (R98); a direct handler's mask applies to writes (R100). -/
def mmioWrite (script : Dword → Script → State → Res State) (c : CoreId) (a : Word) (w : Width) (v : Word)
    (s : State) : Res State :=
  match findMmio (s.core c).mmio a w with
  | none => .fault (.unimplementedAccess c a w .write)
  | some e =>
    match e.write with
    | .irq r p => .next (s.setCore c (irqWrite (s.core c) r p v))
    | .direct f mask => .next (s.setField f ((s.field f &&& ~~~(mask.setWidth 64)) ||| ((v &&& mask).setWidth 64)))
    | .stub => .next s
    | .complex acts => script (v.setWidth 64) acts s

/-- `MemRead` over a way to run handlers' scripts (R72, R80, R86, R87). -/
def readWith (script : Dword → Script → State → Res State) : ReadFn := fun c addr w s =>
  let a := alignDown addr w
  match locate c a .read s with
  | .buffer b o => .next (readBytes (s.buf.cells b) o w, s)
  | .mmio => mmioRead script c a w s
  | .fixed v => .next (truncate w v, s)
  | .ignore => .next (0, s)
  | .unmapped => .fault (.unimplementedAccess c a w .read)

/-- `MemWrite` over a way to run handlers' scripts (R73, R80, R81, R87). -/
def writeWith (script : Dword → Script → State → Res State) : WriteFn := fun c addr w v s =>
  let a := alignDown addr w
  match locate c a .write s with
  | .buffer b o => .next (s.setCells b (writeBytes (s.buf.cells b) o w v))
  | .mmio => mmioWrite script c a w (truncate w v) s
  | .fixed _ => .next s
  | .ignore => .next s
  | .unmapped => .fault (.unimplementedAccess c a w .write)

/-- How closures run with `d` levels of handlers below them: at level 0 only the empty one runs (log 10). -/
def scriptAt : Nat → Dword → Script → State → Res State
  | 0, _, .done, s => .next s
  | 0, _, _, _ => .refused .nestedMmioAccess
  | d + 1, v, acts, s => runClosure (readWith (scriptAt d)) (writeWith (scriptAt d)) v acts s

/-- `MemRead(addr, n)` through core `c`'s view (R72). -/
def memRead : ReadFn := fun c a w s => readWith (scriptAt s.par.nesting) c a w s

/-- `MemWrite(addr, n, v)` through core `c`'s view (R73). -/
def memWrite : WriteFn := fun c a w v s => writeWith (scriptAt s.par.nesting) c a w v s

/-- A callback or a peripheral call (R117, R541). -/
def runScript (acts : Script) (s : State) : Res State := runClosure memRead memWrite 0 acts s

/-- `MemRead` by the executing core. -/
def load (addr : Word) (w : Width) (s : State) : Res (Word × State) := memRead s.running addr w s

/-- `MemWrite` by the executing core. -/
def store (addr : Word) (w : Width) (v : Word) (s : State) : Res State := memWrite s.running addr w v s

end Sys2Proof.Machine
end

