-- ==== Sys2Proof/Machine/Flags.lean ====
section
/-! DEFINITION. Condition codes (spec/40_fetch_dispatch_cond.md R181) and flag computations (spec/41_data_processing.md R209,
R210; spec/46_multiply_dsp.md R340, R351). -/

namespace Sys2Proof.Machine

/-- `cond_passed(cc)` (R181); 1111 never passes. -/
def condPassed (cc : BitVec 4) (k : CoreState) : Bool :=
  match cc.toNat with
  | 0 => k.z
  | 1 => !k.z
  | 2 => k.c
  | 3 => !k.c
  | 4 => k.n
  | 5 => !k.n
  | 6 => k.v
  | 7 => !k.v
  | 8 => k.c && !k.z
  | 9 => !k.c || k.z
  | 10 => k.n == k.v
  | 11 => k.n != k.v
  | 12 => !k.z && k.n == k.v
  | 13 => k.z || k.n != k.v
  | 14 => true
  | _ => false

/-- The four condition flags. -/
structure Flags where
  n : Bool
  z : Bool
  c : Bool
  v : Bool
deriving DecidableEq, Repr

/-- The flags of a core (R20). -/
def CoreState.flags (k : CoreState) : Flags := { n := k.n, z := k.z, c := k.c, v := k.v }

/-- `CPSR.{N,Z,C,V} <- f`: no other bit changes (R20, R200). -/
def setFlags (f : Flags) (cpsr : Word) : Word := setBit (setBit (setBit (setBit cpsr 31 f.n) 30 f.z) 29 f.c) 28 f.v

/-- The core with its condition flags replaced. -/
def CoreState.setFlags (k : CoreState) (f : Flags) : CoreState := { k with cpsr := Machine.setFlags f k.cpsr }

/-- The executing core's condition flags replaced. -/
def State.setFlags (s : State) (f : Flags) : State := s.setCur (s.cur.setFlags f)

/-- `CPSR.Q <- 1` where saturation happened: the flag is sticky (R20, R351). -/
def State.orQ (s : State) (sat : Bool) : State :=
  if sat then s.setCur { s.cur with cpsr := setBit s.cur.cpsr 27 true } else s

/-- A result with the flags it gives. -/
structure Alu where
  result : Word
  flags  : Flags
deriving DecidableEq, Repr

/-- `AddWithCarry(a, b, cin)` (R210): the exact sum, its carry out, signed overflow from the sign bits. -/
def addWithCarry (a b : Word) (cin : Bool) : Alu :=
  let sum := a.toNat + b.toNat + cin.toNat
  let r : Word := BitVec.ofNat 32 sum
  { result := r,
    flags := { n := r.getLsbD 31, z := r == 0, c := decide (2 ^ 32 ≤ sum),
               v := (~~~(a ^^^ b) &&& (a ^^^ r)).getLsbD 31 } }

/-- A logical result (R209): N and Z from it, C the shifter's carry, V as it was. -/
def logical (r : Word) (shifterCarry : Bool) (old : Flags) : Alu :=
  { result := r, flags := { n := r.getLsbD 31, z := r == 0, c := shifterCarry, v := old.v } }

/-- N and Z from a result, C and V as they were (R340, R412). -/
def nzOnly (r : Word) (old : Flags) : Flags := { n := r.getLsbD 31, z := r == 0, c := old.c, v := old.v }

/-- N and Z of a 64-bit result (R343). -/
def nzLong (p : Dword) (old : Flags) : Flags := { n := p.getLsbD 63, z := p == 0, c := old.c, v := old.v }

/-- `SignedSat32(v)` (R351): the saturated word and whether it saturated. -/
def signedSat32 (v : Int) : Word × Bool :=
  if 2 ^ 31 - 1 < v then (0x7FFFFFFF, true)
  else if v < -(2 ^ 31) then (0x80000000, true)
  else (BitVec.ofInt 32 v, false)

/-- An exact integer does not fit the signed 32-bit range (R362, R364). -/
def outOfRange (v : Int) : Bool := decide (2 ^ 31 - 1 < v) || decide (v < -(2 ^ 31))

end Sys2Proof.Machine
end

