-- ==== Sys2Proof/Machine/Operands.lean ====
section
/-! DEFINITION. Operand 2 and the barrel shifter (spec/41_data_processing.md R201 to R207) and the addresses of loads and stores
(spec/42_load_store.md R251, R260; spec/43_block_swap.md R290; spec/30_encoding.md R149, R153). -/

namespace Sys2Proof.Machine

/-- An operand with the shifter's carry-out. -/
structure Shifted where
  value : Word
  carry : Bool
deriving DecidableEq, Repr

/-- `ror32(v, n)` for 0 ≤ n ≤ 31 (00_scope.md section 6.1). -/
def ror32 (v : Word) (n : Nat) : Word := v.rotateRight n

/-- A shift by an immediate (R202 to R205): the amount 0 means 32 for LSR and ASR, and RRX for ROR. -/
def shiftImm (type : ShiftType) (amount : BitVec 5) (v : Word) (c : Bool) : Shifted :=
  let n := amount.toNat
  match type with
  | .lsl => if n = 0 then { value := v, carry := c } else { value := v <<< n, carry := v.getLsbD (32 - n) }
  | .lsr =>
    if n = 0 then { value := 0, carry := v.getLsbD 31 } else { value := v >>> n, carry := v.getLsbD (n - 1) }
  | .asr =>
    if n = 0 then { value := v.sshiftRight 31, carry := v.getLsbD 31 }
    else { value := v.sshiftRight n, carry := v.getLsbD (n - 1) }
  | .ror =>
    if n = 0 then { value := (BitVec.ofBool c).setWidth 32 <<< 31 ||| v >>> 1, carry := v.getLsbD 0 }
    else { value := ror32 v n, carry := v.getLsbD (n - 1) }

/-- A shift by a register's low byte (R206): the amount 0 changes nothing. -/
def shiftReg (type : ShiftType) (amount : Byte) (v : Word) (c : Bool) : Shifted :=
  let n := amount.toNat
  if n = 0 then { value := v, carry := c }
  else
    match type with
    | .lsl =>
      if n < 32 then { value := v <<< n, carry := v.getLsbD (32 - n) }
      else { value := 0, carry := n == 32 && v.getLsbD 0 }
    | .lsr =>
      if n < 32 then { value := v >>> n, carry := v.getLsbD (n - 1) }
      else { value := 0, carry := n == 32 && v.getLsbD 31 }
    | .asr =>
      if n < 32 then { value := v.sshiftRight n, carry := v.getLsbD (n - 1) }
      else { value := v.sshiftRight 31, carry := v.getLsbD 31 }
    | .ror =>
      if n % 32 = 0 then { value := v, carry := v.getLsbD 31 }
      else { value := ror32 v (n % 32), carry := v.getLsbD (n % 32 - 1) }

/-- A rotated immediate (R149): `ror32(zext_32(imm8), 2 * rotate)`. -/
def rotatedImm (rotate : BitVec 4) (imm8 : BitVec 8) : Word := ror32 (imm8.setWidth 32) (2 * rotate.toNat)

/-- Operand 2, immediate (R201): the carry-out is C when rotate = 0, else bit 31 of the operand. -/
def operandImm (x : ImmOperand) (k : CoreState) : Shifted :=
  let v := rotatedImm x.rotate x.imm8
  { value := v, carry := if x.rotate = 0 then k.c else v.getLsbD 31 }

/-- Operand 2, `Rm` shifted by an immediate (R202 to R205, R207). -/
def operandShiftImm (x : ShiftImmOperand) (k : CoreState) : Shifted := shiftImm x.type x.amount (k.reg x.rm) k.c

/-- A register of the register-shift form: R15 reads four bytes further on (R207, R176). -/
def CoreState.regPlus4 (k : CoreState) (i : BitVec 4) : Word := if i = 15 then k.reg 15 + 4 else k.reg i

/-- Operand 2, `Rm` shifted by `Rs` (R206, R207). -/
def operandShiftReg (x : ShiftRegOperand) (k : CoreState) : Shifted :=
  shiftReg x.type ((k.regPlus4 x.rs).extractLsb' 0 8) (k.regPlus4 x.rm) k.c

/-- The address of a single transfer, what write-back leaves in the base, and whether it happens (R251, R260). -/
structure Address where
  addr : Word
  idx  : Word
  wb   : Bool
deriving DecidableEq, Repr

/-- The indexing of R251 and R260: P pre-index, U add, W write-back; post-indexing always writes back. -/
def indexed (p u w : BitVec 1) (base off : Word) : Address :=
  let idx := if u = 1 then base + off else base - off
  { addr := if p = 1 then idx else base, idx := idx, wb := p == 0 || w == 1 }

/-- R251 with a 12-bit offset. -/
def addrSdtImm (o : SdtImmOps) (k : CoreState) : Address := indexed o.p o.u o.w (k.reg o.rn) (o.offset.setWidth 32)

/-- R251 with a shifted-register offset; the carry-out is discarded. -/
def addrSdtReg (o : SdtRegOps) (k : CoreState) : Address :=
  indexed o.p o.u o.w (k.reg o.rn) (shiftImm o.type o.amount (k.reg o.rm) k.c).value

/-- R251 for a T form, P = 0 and W = 1 (R257). -/
def addrSdtTImm (o : SdtTImmOps) (k : CoreState) : Address := indexed 0 o.u 1 (k.reg o.rn) (o.offset.setWidth 32)

/-- R251 for a T form with a shifted-register offset (R257). -/
def addrSdtTReg (o : SdtTRegOps) (k : CoreState) : Address :=
  indexed 0 o.u 1 (k.reg o.rn) (shiftImm o.type o.amount (k.reg o.rm) k.c).value

/-- R260 with a register offset. -/
def addrHdtReg (o : HdtRegOps) (k : CoreState) : Address := indexed o.p o.u o.w (k.reg o.rn) (k.reg o.rm)

/-- R260 with an 8-bit offset. -/
def addrHdtImm (o : HdtImmOps) (k : CoreState) : Address :=
  indexed o.p o.u o.w (k.reg o.rn) ((o.immHi ++ o.immLo).setWidth 32)

/-- "rotate on unaligned read" of a word (R252). -/
def rotateWord (addr data : Word) : Word := ror32 data (8 * (addr.extractLsb' 0 2).toNat)

/-- The rotation of a half-word at an odd address (R262). -/
def rotateHalf (addr data : Word) : Word := ror32 data (8 * (addr.extractLsb' 0 1).toNat)

/-- Sign extension of a byte held in a word (R265). -/
def signByte (v : Word) : Word := (v.extractLsb' 0 8).signExtend 32

/-- Sign extension of a half-word held in a word (R264). -/
def signHalf (v : Word) : Word := (v.extractLsb' 0 16).signExtend 32

/-- The registers of a list, ascending (R290). -/
def listRegs (list : BitVec 16) : List (BitVec 4) :=
  ((List.range 16).filter fun i => list.getLsbD i).map fun i => BitVec.ofNat 4 i

/-- The first transfer address of a block transfer of `n` words (R290). -/
def blockStart (p u : BitVec 1) (base : Word) (n : Nat) : Word :=
  let size : Word := BitVec.ofNat 32 (4 * n)
  if u = 1 then (if p = 1 then base + 4 else base) else (if p = 1 then base - size else base - size + 4)

/-- The value written back to the base of a block transfer (R290). -/
def blockWriteBack (u : BitVec 1) (base : Word) (n : Nat) : Word :=
  let size : Word := BitVec.ofNat 32 (4 * n)
  if u = 1 then base + size else base - size

/-- A branch offset (R149): `sext_32(imm24 :: 0b00)`. -/
def branchOffset (imm24 : BitVec 24) : Word := (imm24 ++ 0#2).signExtend 32

/-- A low register of a Thumb instruction (R151). -/
def low (i : BitVec 3) : BitVec 4 := 0#1 ++ i

/-- A register of Thumb format 5: H1 or H2 is bit 3 (R151). -/
def hiReg (h : BitVec 1) (i : BitVec 3) : BitVec 4 := h ++ i

/-- `x[15] & 0xFFFFFFFD`, the word-aligned PC value of the Thumb PC-relative forms (R435, R458). -/
def CoreState.pcAligned (k : CoreState) : Word := k.reg 15 &&& 0xFFFFFFFD

/-- The halfword a signed multiply selects (R360), sign-extended to 32 bits. -/
def halfOf (sel : BitVec 1) (v : Word) : Word :=
  if sel = 0 then (v.extractLsb' 0 16).signExtend 32 else (v.extractLsb' 16 16).signExtend 32

/-- Leading zeros of a word, 32 for zero (R350). -/
def clz32 (v : Word) : Nat := 32 - ((List.range 32).foldl (fun acc i => if v.getLsbD i then i + 1 else acc) 0)

end Sys2Proof.Machine
end

