-- ==== Sys2Proof/Machine/Ops.lean ====
section
/-! DEFINITION. The operations every instruction is made of: the flush (spec/40_fetch_dispatch_cond.md R174), the mode switch and
the status registers (spec/10_state.md R17, R22, R26, R27), taking an exception and returning from one
(spec/60_exceptions.md R502 to R506), writing a register, loading the program counter (spec/42_load_store.md R250, R253),
and the unknown instruction (spec/47_system_coproc.md R390). -/

namespace Sys2Proof.Machine

/-- The pipeline slots of the executing core. -/
def State.setPipe (s : State) (p0 p1 : Word) : State := s.setCur { s.cur with pipe0 := p0, pipe1 := p1 }

/-- `flush()` (R174): align `R[15]` to the instruction set in force, refill both slots, advance `R[15]` by two widths. -/
def flush (s : State) : Res State :=
  let thumb := s.cur.t
  let pc := if thumb then s.x 15 &&& 0xFFFFFFFE else s.x 15 &&& 0xFFFFFFFC
  let width := if thumb then Width.w16 else Width.w32
  let step : Word := if thumb then 2 else 4
  Res.bind (load pc width (s.setX 15 pc)) fun a =>
    Res.bind (load (pc + step) width (a.2.setPipe a.1 a.2.cur.pipe1)) fun b =>
      .next { (b.2.setPipe b.2.cur.pipe0 b.1).setX 15 (pc + step + step) with branched := true }

/-- `pc <- target` (00_scope.md section 6.2): `R[15] <- target`, then the flush. -/
def branchTo (target : Word) (s : State) : Res State := flush (s.setX 15 target)

/-- A register write whose index comes from an instruction field: index 15 is `pc <- v` (R250). -/
def writeReg (i : BitVec 4) (v : Word) (s : State) : Res State := if i = 15 then branchTo v s else .next (s.setX i v)

/-- `load_pc(value)` (R253): on A9 bit 0 selects the instruction set, on A7 T is unchanged. -/
def loadPc (v : Word) (s : State) : Res State :=
  match s.running with
  | .a9 => branchTo (v &&& 0xFFFFFFFE) (s.setCur (s.cur.setT (v.getLsbD 0)))
  | .a7 => branchTo v s

/-- `CPSR.T <- v[0]; pc <- v & 0xFFFFFFFE`, the exchange of BX and BLX (R312, R313, R433, R434). -/
def exchangeTo (v : Word) (s : State) : Res State :=
  branchTo (v &&& 0xFFFFFFFE) (s.setCur (s.cur.setT (v.getLsbD 0)))

/-- The bank of a mode (R13); none for a value that is not a mode. -/
def bankOf (m : BitVec 5) : Option Bank :=
  match m.toNat with
  | 0x10 => some .usr
  | 0x11 => some .fiq
  | 0x12 => some .irq
  | 0x13 => some .svc
  | 0x17 => some .abt
  | 0x1B => some .und
  | 0x1F => some .usr
  | _ => none

/-- The live bank (R13, R16). The mode of a reachable state is always valid (R14); the default is never used there
(log 26). -/
def CoreState.bank (k : CoreState) : Bank := (bankOf k.mode).getD .usr

/-- The word of a bank. -/
def Banked.get (b : Banked) : Bank → Word
  | .usr => b.usr
  | .fiq => b.fiq
  | .irq => b.irq
  | .svc => b.svc
  | .abt => b.abt
  | .und => b.und

/-- The words with one bank's replaced. -/
def Banked.set (b : Banked) (i : Bank) (v : Word) : Banked :=
  match i with
  | .usr => { b with usr := v }
  | .fiq => { b with fiq := v }
  | .irq => { b with irq := v }
  | .svc => { b with svc := v }
  | .abt => { b with abt := v }
  | .und => { b with und := v }

/-- `R[8..12]` of the live registers. -/
def CoreState.r8to12 (k : CoreState) : Vector Word 5 := #v[k.reg 8, k.reg 9, k.reg 10, k.reg 11, k.reg 12]

/-- The live registers with `R[8..12]` replaced. -/
def CoreState.setR8to12 (k : CoreState) (v : Vector Word 5) : CoreState :=
  ((((k.setReg 8 v[0]).setReg 9 v[1]).setReg 10 v[2]).setReg 11 v[3]).setReg 12 v[4]

/-- The R8 to R12 part of a bank change: only crossing into or out of FIQ (R17). -/
def swapFiq (old new : Bank) (k : CoreState) : CoreState :=
  if old = .fiq then { k.setR8to12 k.nonfiqR8 with fiqR8 := k.r8to12 }
  else if new = .fiq then { k.setR8to12 k.fiqR8 with nonfiqR8 := k.r8to12 }
  else k

/-- The R13 and R14 part of a bank change (R17). -/
def swapLow (old new : Bank) (k : CoreState) : CoreState :=
  let k := { k with bankR13 := k.bankR13.set old (k.reg 13), bankR14 := k.bankR14.set old (k.reg 14) }
  (k.setReg 13 (k.bankR13.get new)).setReg 14 (k.bankR14.get new)

/-- The bank swap of R17: nothing if the bank does not change. -/
def swapBanks (old new : Bank) (k : CoreState) : CoreState :=
  if old = new then k else swapLow old new (swapFiq old new k)

/-- `CPSR.M <- m`. -/
def CoreState.setMode (k : CoreState) (m : BitVec 5) : CoreState :=
  { k with cpsr := (k.cpsr &&& 0xFFFFFFE0) ||| m.setWidth 32 }

/-- `switch_mode(m)` (R17) on the executing core: only the low 5 bits are used; an invalid mode faults (R14). -/
def switchMode (m : Word) (s : State) : Res State :=
  let mode := m.extractLsb' 0 5
  match bankOf mode with
  | none => .fault (.invalidMode mode)
  | some new => .next (s.setCur ((swapBanks s.cur.bank new s.cur).setMode mode))

/-- `write_cpsr(v)` (R22): the mode switch, then all 32 bits. -/
def writeCpsr (v : Word) (s : State) : Res State :=
  Res.bind (switchMode v s) fun t => .next (t.setCur { t.cur with cpsr := v }.updateLatch)

/-- `SPSR[b]`; the USR bank has none (R26, R27). -/
def Spsrs.get (p : Spsrs) : Bank → Option Word
  | .usr => none
  | .fiq => some p.fiq
  | .irq => some p.irq
  | .svc => some p.svc
  | .abt => some p.abt
  | .und => some p.und

/-- `SPSR[b] <- v`. -/
def Spsrs.set (p : Spsrs) (b : Bank) (v : Word) : Spsrs :=
  match b with
  | .usr => p
  | .fiq => { p with fiq := v }
  | .irq => { p with irq := v }
  | .svc => { p with svc := v }
  | .abt => { p with abt := v }
  | .und => { p with und := v }

/-- A read of the current SPSR (R26); in User or System mode it faults (R27). -/
def readSpsr (s : State) : Res Word :=
  match s.cur.spsr.get s.cur.bank with
  | some v => .next v
  | none => .fault (.invalidPsrAccess s.cur.mode)

/-- A write of the current SPSR (R26, R27). -/
def writeSpsr (v : Word) (s : State) : Res State :=
  match s.cur.spsr.get s.cur.bank with
  | some _ => .next (s.setCur { s.cur with spsr := s.cur.spsr.set s.cur.bank v })
  | none => .fault (.invalidPsrAccess s.cur.mode)

/-- `EXC_BASE` (R505): 0 on A7; on A9 selected by `cp15_control[13]`. -/
def excBase (s : State) : Word :=
  match s.running with
  | .a7 => 0
  | .a9 => if s.ctl.controlBit 13 then Params.highBase else 0

/-- TAKING AN EXCEPTION (R502): the old CPSR to the target mode's SPSR, the mode switched, I set, T cleared, the return
address to the new mode's R14, and a flush at the vector. -/
def enterException (mode vector lr : Word) (s : State) : Res State :=
  let old := s.cur.cpsr
  Res.bind (switchMode mode s) fun t =>
    let k := t.cur
    let k := { k with spsr := k.spsr.set k.bank old, cpsr := setBit (setBit k.cpsr 7 true) 5 false }
    branchTo (excBase t + vector) (t.setCur (k.setReg 14 lr))

/-- `raise SWI` (R503): Supervisor mode, vector 0x08, the address of the next instruction as return address. -/
def raiseSwi (s : State) : Res State :=
  enterException 0x13 Params.vecSwi (if s.cur.t then s.x 15 - 2 else s.x 15 - 4) s

/-- `raise IRQ` (R504): IRQ mode, vector 0x18, the address of the next instruction + 4 as return address. -/
def raiseIrq (s : State) : Res State :=
  enterException 0x12 Params.vecIrq (if s.cur.t then s.x 15 else s.x 15 - 4) s

/-- RETURNING FROM AN EXCEPTION (R212, R296, R506): the SPSR to the CPSR with its bank swap, then `pc <- result`. -/
def returnFromException (result : Word) (s : State) : Res State :=
  Res.bind (readSpsr s) fun v => Res.bind (writeCpsr v s) fun t => branchTo result t

/-- An ARM instruction runs only if its condition passes; else it changes nothing (R181, R182). -/
def conditional (cond : BitVec 4) (s : State) (body : Res State) : Res State :=
  if condPassed cond s.cur then body else .next s

/-- The address of the executing instruction (R176). -/
def instrAddr (s : State) : Word := if s.cur.t then s.x 15 - 4 else s.x 15 - 8

/-- `log_unknown(word)` (R390): the record, and nothing else. -/
def logUnknown (i : Instr) (s : State) : Res State :=
  .next (s.setCur { s.cur with unknownLog := s.cur.unknownLog ++ [(instrAddr s, codeWord i)] })

/-- A class that exists on core A9 only is unknown on A7 (R390). -/
def onA9 (i : Instr) (s : State) (body : Res State) : Res State :=
  match s.running with
  | .a9 => body
  | .a7 => logUnknown i s

/-- The value a store of R15 stores: the instruction's address + 12 in ARM mode (R254), + 6 in Thumb mode (R462). -/
def storedPc (s : State) : Word := if s.cur.t then s.x 15 + 2 else s.x 15 + 4

/-- The register a store instruction stores (R254). -/
def storeReg (i : BitVec 4) (s : State) : Word := if i = 15 then storedPc s else s.x i

end Sys2Proof.Machine
end

