-- ==== Sys2Proof/Machine/Block.lean ====
section
/-! DEFINITION. Block transfers (spec/43_block_swap.md R290 to R298). -/

namespace Sys2Proof.Machine

/-- The user-bank register `xu[i]` (R296). -/
def CoreState.userReg (k : CoreState) (i : BitVec 4) : Word :=
  if 8 ≤ i.toNat ∧ i.toNat ≤ 12 ∧ k.bank = .fiq then k.nonfiqR8.get (Fin.ofNat 5 (i.toNat - 8))
  else if i = 13 ∧ k.bank ≠ .usr then k.bankR13.usr
  else if i = 14 ∧ k.bank ≠ .usr then k.bankR14.usr
  else k.reg i

/-- `xu[i] <- v` (R296). -/
def CoreState.setUserReg (k : CoreState) (i : BitVec 4) (v : Word) : CoreState :=
  if 8 ≤ i.toNat ∧ i.toNat ≤ 12 ∧ k.bank = .fiq then
    { k with nonfiqR8 := k.nonfiqR8.set (Fin.ofNat 5 (i.toNat - 8)) v }
  else if i = 13 ∧ k.bank ≠ .usr then { k with bankR13 := { k.bankR13 with usr := v } }
  else if i = 14 ∧ k.bank ≠ .usr then { k with bankR14 := { k.bankR14 with usr := v } }
  else k.setReg i v

/-- Load words for the registers of a list from ascending addresses (R292). -/
def loadList : List (BitVec 4) → Word → State → Res (List (BitVec 4 × Word) × State)
  | [], _, s => .next ([], s)
  | i :: rest, a, s =>
    Res.bind (load a .w32 s) fun p =>
      Res.bind (loadList rest (a + 4) p.2) fun q => .next ((i, p.1) :: q.1, q.2)

/-- Store words at ascending addresses (R293). -/
def storeList : List Word → Word → State → Res State
  | [], _, s => .next s
  | v :: rest, a, s => Res.bind (store a .w32 v s) (storeList rest (a + 4))

/-- `x[i] <- v[i]` for the loaded registers but R15 (R292). -/
def writeList (user : Bool) : List (BitVec 4 × Word) → State → State
  | [], s => s
  | (i, v) :: rest, s =>
    let t := if i = 15 then s else s.setCur (if user then s.cur.setUserReg i v else s.cur.setReg i v)
    writeList user rest t

/-- The word loaded for R15, if R15 was in the list. -/
def pcOf (vs : List (BitVec 4 × Word)) : Option Word := (vs.find? fun p => p.1 == 15).map Prod.snd

/-- What a block transfer moves: the registers, and the count the address arithmetic uses. An empty list counts 16; core A7
then transfers R15 alone, core A9 nothing (R297). -/
def transferRegs (c : CoreId) (list : BitVec 16) : List (BitVec 4) × Nat :=
  if list = 0 then ((match c with | .a7 => [15] | .a9 => []), 16)
  else (listRegs list, (listRegs list).length)

/-- When LDM writes its base back (R295). -/
inductive LdmWriteBack where
  | never
  | before
  | after
deriving DecidableEq, Repr

/-- LDM with write-back asked for (R295): a base outside the list is written before the loaded values; a base in the list
never on core A7, and on core A9 after them, unless it is the highest of several. -/
def ldmWriteBack (c : CoreId) (w : BitVec 1) (rn : BitVec 4) (list : BitVec 16) : LdmWriteBack :=
  if w = 0 then .never
  else if list.getLsbD rn.toNat = false then .before
  else
    match c with
    | .a7 => .never
    | .a9 => if listRegs list = [rn] ∨ (listRegs list).getLast? ≠ some rn then .after else .never

/-- LDM (R292, R294, R296): the loads, the write-back, the registers; then R15, which with S = 1 is an exception return. A
late write-back of core A9 comes after the loaded values and, in the S form, before the mode changes (log 14). -/
def loadMultiple (o : BdtOps) (s : State) : Res State :=
  let regs := transferRegs s.running o.list
  let base := s.x o.rn
  let back := blockWriteBack o.u base regs.2
  let wb := ldmWriteBack s.running o.w o.rn o.list
  Res.bind (loadList regs.1 (blockStart o.p o.u base regs.2) s) fun q =>
    Res.bind (if wb = .before then writeReg o.rn back q.2 else .next q.2) fun t =>
      match pcOf q.1 with
      | none =>
        let t := writeList (o.s == 1) q.1 t
        if wb = .after then writeReg o.rn back t else .next t
      | some v =>
        let t := writeList false q.1 t
        if o.s = 1 then
          Res.bind (if wb = .after then writeReg o.rn back t else .next t) (returnFromException v)
        else
          Res.bind (loadPc v t) fun t => if wb = .after then writeReg o.rn back t else .next t

/-- The value STM stores for register `i` (R293, R295): R15 as the instruction's address + 12; a base in the list, with
write-back, the written-back value on core A7 unless it is the first; else the register, of the User bank in the S form. -/
def stmValue (o : BdtOps) (back : Word) (first : BitVec 4) (s : State) (i : BitVec 4) : Word :=
  if i = 15 then storedPc s
  else if i = o.rn ∧ o.w = 1 ∧ i ≠ first ∧ s.running = .a7 then back
  else if o.s = 1 then s.cur.userReg i
  else s.x i

/-- STM (R293, R296, R297): the stores, then the write-back. -/
def storeMultiple (o : BdtOps) (s : State) : Res State :=
  let regs := transferRegs s.running o.list
  let base := s.x o.rn
  let back := blockWriteBack o.u base regs.2
  let values := regs.1.map (stmValue o back (regs.1.headD 15) s)
  Res.bind (storeList values (blockStart o.p o.u base regs.2) s) fun t =>
    if o.w = 1 then writeReg o.rn back t else .next t

/-- STM (R293). -/
def execStm (o : BdtOps) (s : State) : Res State :=
  conditional o.cond s (storeMultiple o s)

/-- LDM (R292). -/
def execLdm (o : BdtOps) (s : State) : Res State :=
  conditional o.cond s (loadMultiple o s)

end Sys2Proof.Machine
end

