-- ==== Sys2Proof/Machine/BranchPsr.lean ====
section
/-! DEFINITION. ARM branches (spec/44_branch.md R310 to R314) and status-register transfer (spec/45_psr_transfer.md R325 to
R329). -/

namespace Sys2Proof.Machine

/-- The mask of MSR (R326): bit 3 of the field is f, 2 s, 1 x, 0 c. -/
def msrMask (field : BitVec 4) : Word :=
  (if field.getLsbD 3 then 0xFF000000 else 0) ||| (if field.getLsbD 2 then 0x00FF0000 else 0) |||
  (if field.getLsbD 1 then 0x0000FF00 else 0) ||| (if field.getLsbD 0 then 0x000000FF else 0)

/-- A register with the masked bits replaced. -/
def merge (old mask v : Word) : Word := (old &&& ~~~mask) ||| (v &&& mask)

/-- The mask in force for the CPSR (R328): User mode writes the flags byte only, and never T. -/
def cpsrMask (field : BitVec 4) (k : CoreState) : Word :=
  (if k.mode = 0x10 then msrMask field &&& 0xFF000000 else msrMask field) &&& 0xFFFFFFDF

/-- MSR to the CPSR (R328). -/
def msrCpsr (field : BitVec 4) (v : Word) (s : State) : Res State :=
  writeCpsr (merge s.cur.cpsr (cpsrMask field s.cur) v) s

/-- MSR to the SPSR (R329); in User or System mode the access faults, also with an empty mask. -/
def msrSpsr (field : BitVec 4) (v : Word) (s : State) : Res State :=
  Res.bind (readSpsr s) fun old => writeSpsr (merge old (msrMask field) v) s

/-- B (R310). -/
def execB (o : BranchOps) (s : State) : Res State :=
  conditional o.cond s (branchTo (s.x 15 + branchOffset o.imm24) s)

/-- BL (R311). -/
def execBl (o : BranchOps) (s : State) : Res State :=
  conditional o.cond s (branchTo (s.x 15 + branchOffset o.imm24) (s.setX 14 (s.x 15 - 4)))

/-- BX (R312). -/
def execBx (o : BxOps) (s : State) : Res State :=
  conditional o.cond s (exchangeTo (s.x o.rm) s)

/-- BLX Rm (R313). -/
def execBlxReg (o : BxOps) (s : State) : Res State :=
  conditional o.cond s (onA9 (.blxReg o) s (exchangeTo (s.x o.rm) (s.setX 14 (s.x 15 - 4))))

/-- BLX label (R314): core A9; on core A7 its condition never passes (R136). -/
def execBlxLabel (o : BlxLabelOps) (s : State) : Res State :=
  match s.running with
  | .a7 => .next s
  | .a9 =>
    let t := s.setX 14 (s.x 15 - 4)
    branchTo (s.x 15 + branchOffset o.imm24 + (o.h.setWidth 32 <<< 1)) (t.setCur (t.cur.setT true))

/-- MRS (R325). -/
def execMrs (o : MrsOps) (s : State) : Res State :=
  conditional o.cond s
    (if o.r = 0 then writeReg o.rd s.cur.cpsr s else Res.bind (readSpsr s) fun v => writeReg o.rd v s)

/-- MSR CPSR_<fields>, Rm (R328). -/
def execMsrCpsrReg (o : MsrRegOps) (s : State) : Res State :=
  conditional o.cond s (msrCpsr o.mask (s.x o.rm) s)

/-- MSR SPSR_<fields>, Rm (R329). -/
def execMsrSpsrReg (o : MsrRegOps) (s : State) : Res State :=
  conditional o.cond s (msrSpsr o.mask (s.x o.rm) s)

/-- MSR CPSR_<fields>, #imm (R328). -/
def execMsrCpsrImm (o : MsrImmOps) (s : State) : Res State :=
  conditional o.cond s (msrCpsr o.mask (rotatedImm o.rotate o.imm8) s)

/-- MSR SPSR_<fields>, #imm (R329). -/
def execMsrSpsrImm (o : MsrImmOps) (s : State) : Res State :=
  conditional o.cond s (msrSpsr o.mask (rotatedImm o.rotate o.imm8) s)

end Sys2Proof.Machine
end

