-- ==== Sys2Proof/Machine/DataProcessing.lean ====
section
/-! DEFINITION. The sixteen data-processing instructions in their three operand forms (spec/41_data_processing.md R200 to
R229). -/

namespace Sys2Proof.Machine

/-- What an opcode computes from the first operand, operand 2 with its carry, and the old flags (R214 to R229). -/
abbrev AluOp := Word → Shifted → Flags → Alu

/-- AND (R214). -/
def aluAnd : AluOp := fun a b f => logical (a &&& b.value) b.carry f
/-- EOR (R215). -/
def aluEor : AluOp := fun a b f => logical (a ^^^ b.value) b.carry f
/-- SUB (R216). -/
def aluSub : AluOp := fun a b _ => addWithCarry a (~~~b.value) true
/-- RSB (R217). -/
def aluRsb : AluOp := fun a b _ => addWithCarry b.value (~~~a) true
/-- ADD (R218). -/
def aluAdd : AluOp := fun a b _ => addWithCarry a b.value false
/-- ADC (R219). -/
def aluAdc : AluOp := fun a b f => addWithCarry a b.value f.c
/-- SBC (R220). -/
def aluSbc : AluOp := fun a b f => addWithCarry a (~~~b.value) f.c
/-- RSC (R221). -/
def aluRsc : AluOp := fun a b f => addWithCarry b.value (~~~a) f.c
/-- TST (R222): as AND, the result is not written. -/
def aluTst : AluOp := fun a b f => logical (a &&& b.value) b.carry f
/-- TEQ (R223): as EOR, the result is not written. -/
def aluTeq : AluOp := fun a b f => logical (a ^^^ b.value) b.carry f
/-- CMP (R224): as SUB, the result is not written. -/
def aluCmp : AluOp := fun a b _ => addWithCarry a (~~~b.value) true
/-- CMN (R225): as ADD, the result is not written. -/
def aluCmn : AluOp := fun a b _ => addWithCarry a b.value false
/-- ORR (R226). -/
def aluOrr : AluOp := fun a b f => logical (a ||| b.value) b.carry f
/-- MOV (R227): the first operand is not used. -/
def aluMov : AluOp := fun _ b f => logical b.value b.carry f
/-- BIC (R228). -/
def aluBic : AluOp := fun a b f => logical (a &&& ~~~b.value) b.carry f
/-- MVN (R229): the first operand is not used. -/
def aluMvn : AluOp := fun _ b f => logical (~~~b.value) b.carry f

/-- Writing the destination (R200, R211, R212). -/
def dpWrite (h : DpHead) (a : Alu) (s : State) : Res State :=
  if h.rd = 15 then (if h.s = 0 then branchTo a.result s else returnFromException a.result s)
  else .next (if h.s = 1 then (s.setX h.rd a.result).setFlags a.flags else s.setX h.rd a.result)

/-- A compare writes the flags and nothing else (R200, R213). -/
def dpCompare (a : Alu) (s : State) : Res State := .next (s.setFlags a.flags)

/-- The result of an opcode, immediate operand. -/
def resultImm (op : AluOp) (rn : BitVec 4) (x : ImmOperand) (k : CoreState) : Alu :=
  op (k.reg rn) (operandImm x k) k.flags

/-- The result of an opcode, register shifted by an immediate. -/
def resultShiftImm (op : AluOp) (rn : BitVec 4) (x : ShiftImmOperand) (k : CoreState) : Alu :=
  op (k.reg rn) (operandShiftImm x k) k.flags

/-- The result of an opcode, register shifted by a register: R15 reads address + 12 (R207). -/
def resultShiftReg (op : AluOp) (rn : BitVec 4) (x : ShiftRegOperand) (k : CoreState) : Alu :=
  op (k.regPlus4 rn) (operandShiftReg x k) k.flags

/-- AND (immediate operand) (R214). -/
def execAndImm (h : DpHead) (x : ImmOperand) (s : State) : Res State :=
  conditional h.cond s (dpWrite h (resultImm aluAnd h.rn x s.cur) s)

/-- AND (register, shift by immediate) (R214). -/
def execAndShiftImm (h : DpHead) (x : ShiftImmOperand) (s : State) : Res State :=
  conditional h.cond s (dpWrite h (resultShiftImm aluAnd h.rn x s.cur) s)

/-- AND (register, shift by register) (R214). -/
def execAndShiftReg (h : DpHead) (x : ShiftRegOperand) (s : State) : Res State :=
  conditional h.cond s (dpWrite h (resultShiftReg aluAnd h.rn x s.cur) s)

/-- EOR (immediate operand) (R215). -/
def execEorImm (h : DpHead) (x : ImmOperand) (s : State) : Res State :=
  conditional h.cond s (dpWrite h (resultImm aluEor h.rn x s.cur) s)

/-- EOR (register, shift by immediate) (R215). -/
def execEorShiftImm (h : DpHead) (x : ShiftImmOperand) (s : State) : Res State :=
  conditional h.cond s (dpWrite h (resultShiftImm aluEor h.rn x s.cur) s)

/-- EOR (register, shift by register) (R215). -/
def execEorShiftReg (h : DpHead) (x : ShiftRegOperand) (s : State) : Res State :=
  conditional h.cond s (dpWrite h (resultShiftReg aluEor h.rn x s.cur) s)

/-- SUB (immediate operand) (R216). -/
def execSubImm (h : DpHead) (x : ImmOperand) (s : State) : Res State :=
  conditional h.cond s (dpWrite h (resultImm aluSub h.rn x s.cur) s)

/-- SUB (register, shift by immediate) (R216). -/
def execSubShiftImm (h : DpHead) (x : ShiftImmOperand) (s : State) : Res State :=
  conditional h.cond s (dpWrite h (resultShiftImm aluSub h.rn x s.cur) s)

/-- SUB (register, shift by register) (R216). -/
def execSubShiftReg (h : DpHead) (x : ShiftRegOperand) (s : State) : Res State :=
  conditional h.cond s (dpWrite h (resultShiftReg aluSub h.rn x s.cur) s)

/-- RSB (immediate operand) (R217). -/
def execRsbImm (h : DpHead) (x : ImmOperand) (s : State) : Res State :=
  conditional h.cond s (dpWrite h (resultImm aluRsb h.rn x s.cur) s)

/-- RSB (register, shift by immediate) (R217). -/
def execRsbShiftImm (h : DpHead) (x : ShiftImmOperand) (s : State) : Res State :=
  conditional h.cond s (dpWrite h (resultShiftImm aluRsb h.rn x s.cur) s)

/-- RSB (register, shift by register) (R217). -/
def execRsbShiftReg (h : DpHead) (x : ShiftRegOperand) (s : State) : Res State :=
  conditional h.cond s (dpWrite h (resultShiftReg aluRsb h.rn x s.cur) s)

/-- ADD (immediate operand) (R218). -/
def execAddImm (h : DpHead) (x : ImmOperand) (s : State) : Res State :=
  conditional h.cond s (dpWrite h (resultImm aluAdd h.rn x s.cur) s)

/-- ADD (register, shift by immediate) (R218). -/
def execAddShiftImm (h : DpHead) (x : ShiftImmOperand) (s : State) : Res State :=
  conditional h.cond s (dpWrite h (resultShiftImm aluAdd h.rn x s.cur) s)

/-- ADD (register, shift by register) (R218). -/
def execAddShiftReg (h : DpHead) (x : ShiftRegOperand) (s : State) : Res State :=
  conditional h.cond s (dpWrite h (resultShiftReg aluAdd h.rn x s.cur) s)

/-- ADC (immediate operand) (R219). -/
def execAdcImm (h : DpHead) (x : ImmOperand) (s : State) : Res State :=
  conditional h.cond s (dpWrite h (resultImm aluAdc h.rn x s.cur) s)

/-- ADC (register, shift by immediate) (R219). -/
def execAdcShiftImm (h : DpHead) (x : ShiftImmOperand) (s : State) : Res State :=
  conditional h.cond s (dpWrite h (resultShiftImm aluAdc h.rn x s.cur) s)

/-- ADC (register, shift by register) (R219). -/
def execAdcShiftReg (h : DpHead) (x : ShiftRegOperand) (s : State) : Res State :=
  conditional h.cond s (dpWrite h (resultShiftReg aluAdc h.rn x s.cur) s)

/-- SBC (immediate operand) (R220). -/
def execSbcImm (h : DpHead) (x : ImmOperand) (s : State) : Res State :=
  conditional h.cond s (dpWrite h (resultImm aluSbc h.rn x s.cur) s)

/-- SBC (register, shift by immediate) (R220). -/
def execSbcShiftImm (h : DpHead) (x : ShiftImmOperand) (s : State) : Res State :=
  conditional h.cond s (dpWrite h (resultShiftImm aluSbc h.rn x s.cur) s)

/-- SBC (register, shift by register) (R220). -/
def execSbcShiftReg (h : DpHead) (x : ShiftRegOperand) (s : State) : Res State :=
  conditional h.cond s (dpWrite h (resultShiftReg aluSbc h.rn x s.cur) s)

/-- RSC (immediate operand) (R221). -/
def execRscImm (h : DpHead) (x : ImmOperand) (s : State) : Res State :=
  conditional h.cond s (dpWrite h (resultImm aluRsc h.rn x s.cur) s)

/-- RSC (register, shift by immediate) (R221). -/
def execRscShiftImm (h : DpHead) (x : ShiftImmOperand) (s : State) : Res State :=
  conditional h.cond s (dpWrite h (resultShiftImm aluRsc h.rn x s.cur) s)

/-- RSC (register, shift by register) (R221). -/
def execRscShiftReg (h : DpHead) (x : ShiftRegOperand) (s : State) : Res State :=
  conditional h.cond s (dpWrite h (resultShiftReg aluRsc h.rn x s.cur) s)

/-- TST (immediate operand) (R222). -/
def execTstImm (h : CmpHead) (x : ImmOperand) (s : State) : Res State :=
  conditional h.cond s (dpCompare (resultImm aluTst h.rn x s.cur) s)

/-- TST (register, shift by immediate) (R222). -/
def execTstShiftImm (h : CmpHead) (x : ShiftImmOperand) (s : State) : Res State :=
  conditional h.cond s (dpCompare (resultShiftImm aluTst h.rn x s.cur) s)

/-- TST (register, shift by register) (R222). -/
def execTstShiftReg (h : CmpHead) (x : ShiftRegOperand) (s : State) : Res State :=
  conditional h.cond s (dpCompare (resultShiftReg aluTst h.rn x s.cur) s)

/-- TEQ (immediate operand) (R223). -/
def execTeqImm (h : CmpHead) (x : ImmOperand) (s : State) : Res State :=
  conditional h.cond s (dpCompare (resultImm aluTeq h.rn x s.cur) s)

/-- TEQ (register, shift by immediate) (R223). -/
def execTeqShiftImm (h : CmpHead) (x : ShiftImmOperand) (s : State) : Res State :=
  conditional h.cond s (dpCompare (resultShiftImm aluTeq h.rn x s.cur) s)

/-- TEQ (register, shift by register) (R223). -/
def execTeqShiftReg (h : CmpHead) (x : ShiftRegOperand) (s : State) : Res State :=
  conditional h.cond s (dpCompare (resultShiftReg aluTeq h.rn x s.cur) s)

/-- CMP (immediate operand) (R224). -/
def execCmpImm (h : CmpHead) (x : ImmOperand) (s : State) : Res State :=
  conditional h.cond s (dpCompare (resultImm aluCmp h.rn x s.cur) s)

/-- CMP (register, shift by immediate) (R224). -/
def execCmpShiftImm (h : CmpHead) (x : ShiftImmOperand) (s : State) : Res State :=
  conditional h.cond s (dpCompare (resultShiftImm aluCmp h.rn x s.cur) s)

/-- CMP (register, shift by register) (R224). -/
def execCmpShiftReg (h : CmpHead) (x : ShiftRegOperand) (s : State) : Res State :=
  conditional h.cond s (dpCompare (resultShiftReg aluCmp h.rn x s.cur) s)

/-- CMN (immediate operand) (R225). -/
def execCmnImm (h : CmpHead) (x : ImmOperand) (s : State) : Res State :=
  conditional h.cond s (dpCompare (resultImm aluCmn h.rn x s.cur) s)

/-- CMN (register, shift by immediate) (R225). -/
def execCmnShiftImm (h : CmpHead) (x : ShiftImmOperand) (s : State) : Res State :=
  conditional h.cond s (dpCompare (resultShiftImm aluCmn h.rn x s.cur) s)

/-- CMN (register, shift by register) (R225). -/
def execCmnShiftReg (h : CmpHead) (x : ShiftRegOperand) (s : State) : Res State :=
  conditional h.cond s (dpCompare (resultShiftReg aluCmn h.rn x s.cur) s)

/-- ORR (immediate operand) (R226). -/
def execOrrImm (h : DpHead) (x : ImmOperand) (s : State) : Res State :=
  conditional h.cond s (dpWrite h (resultImm aluOrr h.rn x s.cur) s)

/-- ORR (register, shift by immediate) (R226). -/
def execOrrShiftImm (h : DpHead) (x : ShiftImmOperand) (s : State) : Res State :=
  conditional h.cond s (dpWrite h (resultShiftImm aluOrr h.rn x s.cur) s)

/-- ORR (register, shift by register) (R226). -/
def execOrrShiftReg (h : DpHead) (x : ShiftRegOperand) (s : State) : Res State :=
  conditional h.cond s (dpWrite h (resultShiftReg aluOrr h.rn x s.cur) s)

/-- MOV (immediate operand) (R227). -/
def execMovImm (h : DpHead) (x : ImmOperand) (s : State) : Res State :=
  conditional h.cond s (dpWrite h (resultImm aluMov h.rn x s.cur) s)

/-- MOV (register, shift by immediate) (R227). -/
def execMovShiftImm (h : DpHead) (x : ShiftImmOperand) (s : State) : Res State :=
  conditional h.cond s (dpWrite h (resultShiftImm aluMov h.rn x s.cur) s)

/-- MOV (register, shift by register) (R227). -/
def execMovShiftReg (h : DpHead) (x : ShiftRegOperand) (s : State) : Res State :=
  conditional h.cond s (dpWrite h (resultShiftReg aluMov h.rn x s.cur) s)

/-- BIC (immediate operand) (R228). -/
def execBicImm (h : DpHead) (x : ImmOperand) (s : State) : Res State :=
  conditional h.cond s (dpWrite h (resultImm aluBic h.rn x s.cur) s)

/-- BIC (register, shift by immediate) (R228). -/
def execBicShiftImm (h : DpHead) (x : ShiftImmOperand) (s : State) : Res State :=
  conditional h.cond s (dpWrite h (resultShiftImm aluBic h.rn x s.cur) s)

/-- BIC (register, shift by register) (R228). -/
def execBicShiftReg (h : DpHead) (x : ShiftRegOperand) (s : State) : Res State :=
  conditional h.cond s (dpWrite h (resultShiftReg aluBic h.rn x s.cur) s)

/-- MVN (immediate operand) (R229). -/
def execMvnImm (h : DpHead) (x : ImmOperand) (s : State) : Res State :=
  conditional h.cond s (dpWrite h (resultImm aluMvn h.rn x s.cur) s)

/-- MVN (register, shift by immediate) (R229). -/
def execMvnShiftImm (h : DpHead) (x : ShiftImmOperand) (s : State) : Res State :=
  conditional h.cond s (dpWrite h (resultShiftImm aluMvn h.rn x s.cur) s)

/-- MVN (register, shift by register) (R229). -/
def execMvnShiftReg (h : DpHead) (x : ShiftRegOperand) (s : State) : Res State :=
  conditional h.cond s (dpWrite h (resultShiftReg aluMvn h.rn x s.cur) s)

end Sys2Proof.Machine
end

