-- ==== Sys2Proof/Machine/LoadStore.lean ====
section
/-! DEFINITION. Single loads and stores (spec/42_load_store.md R250 to R268) and the swaps (spec/43_block_swap.md R300, R301). -/

namespace Sys2Proof.Machine

/-- A word load: the aligned word, rotated (R252). -/
def loadWord (addr : Word) (s : State) : Res (Word × State) :=
  Res.bind (load addr .w32 s) fun p => .next (rotateWord addr p.1, p.2)

/-- A byte load (R255). -/
def loadByte (addr : Word) (s : State) : Res (Word × State) := load addr .w8 s

/-- A half-word load: the aligned half-word, rotated at an odd address (R262). -/
def loadHalf (addr : Word) (s : State) : Res (Word × State) :=
  Res.bind (load addr .w16 s) fun p => .next (rotateHalf addr p.1, p.2)

/-- A signed byte load (R265). -/
def loadSignedByte (addr : Word) (s : State) : Res (Word × State) :=
  Res.bind (load addr .w8 s) fun p => .next (signByte p.1, p.2)

/-- A signed half-word load: at an odd address the byte there (R264). -/
def loadSignedHalf (addr : Word) (s : State) : Res (Word × State) :=
  if addr.getLsbD 0 then loadSignedByte addr s
  else Res.bind (load addr .w16 s) fun p => .next (signHalf p.1, p.2)

/-- Write-back of the base (R251); index 15 is `pc <-` (R250). -/
def writeBack (rn : BitVec 4) (a : Address) (s : State) : Res State :=
  if a.wb then writeReg rn a.idx s else .next s

/-- A single load (R251): the access, the write-back, then the destination. -/
def singleLoad (get : Word → State → Res (Word × State)) (put : Word → State → Res State) (rn : BitVec 4) (a : Address)
    (s : State) : Res State :=
  Res.bind (get a.addr s) fun p => Res.bind (writeBack rn a p.2) (put p.1)

/-- The destination of LDR: R15 is `load_pc` (R252, R253). -/
def putWord (rd : BitVec 4) (v : Word) (s : State) : Res State := if rd = 15 then loadPc v s else .next (s.setX rd v)

/-- A single store (R251): the value read before anything, the access, then the write-back. -/
def singleStore (w : Width) (rd rn : BitVec 4) (a : Address) (s : State) : Res State :=
  Res.bind (store a.addr w (storeReg rd s) s) (writeBack rn a)

/-- LDRD (R266): two words, each aligned down; write-back; then the pair. An odd `Rd` is unknown. -/
def doubleLoad (i : Instr) (rd rn : BitVec 4) (a : Address) (s : State) : Res State :=
  if rd.getLsbD 0 then logUnknown i s
  else
    Res.bind (load a.addr .w32 s) fun lo => Res.bind (load (a.addr + 4) .w32 lo.2) fun hi =>
      Res.bind (writeBack rn a hi.2) fun t => writeReg (rd + 1) hi.1 (t.setX rd lo.1)

/-- STRD (R266): two words, lower address first; `Rd` = 14 stores R15 as address + 12. -/
def doubleStore (i : Instr) (rd rn : BitVec 4) (a : Address) (s : State) : Res State :=
  if rd.getLsbD 0 then logUnknown i s
  else
    Res.bind (store a.addr .w32 (s.x rd) s) fun t =>
      Res.bind (store (a.addr + 4) .w32 (storeReg (rd + 1) s) t) (writeBack rn a)

/-- A swap (R300, R301): the read, the write, then the destination; `x[Rm]` is read before `Rd` is written. -/
def swap (get : Word → State → Res (Word × State)) (w : Width) (o : SwpOps) (s : State) : Res State :=
  Res.bind (get (s.x o.rn) s) fun p => Res.bind (store (s.x o.rn) w (s.x o.rm) p.2) (writeReg o.rd p.1)

/-- STR (immediate offset) (R254). -/
def execStrImm (o : SdtImmOps) (s : State) : Res State :=
  conditional o.cond s (singleStore .w32 o.rd o.rn (addrSdtImm o s.cur) s)

/-- LDR (immediate offset) (R252). -/
def execLdrImm (o : SdtImmOps) (s : State) : Res State :=
  conditional o.cond s (singleLoad loadWord (putWord o.rd) o.rn (addrSdtImm o s.cur) s)

/-- STRB (immediate offset) (R256). -/
def execStrbImm (o : SdtImmOps) (s : State) : Res State :=
  conditional o.cond s (singleStore .w8 o.rd o.rn (addrSdtImm o s.cur) s)

/-- LDRB (immediate offset) (R255). -/
def execLdrbImm (o : SdtImmOps) (s : State) : Res State :=
  conditional o.cond s (singleLoad loadByte (writeReg o.rd) o.rn (addrSdtImm o s.cur) s)

/-- STRT (immediate offset) (R257). -/
def execStrtImm (o : SdtTImmOps) (s : State) : Res State :=
  conditional o.cond s (singleStore .w32 o.rd o.rn (addrSdtTImm o s.cur) s)

/-- LDRT (immediate offset) (R257). -/
def execLdrtImm (o : SdtTImmOps) (s : State) : Res State :=
  conditional o.cond s (singleLoad loadWord (putWord o.rd) o.rn (addrSdtTImm o s.cur) s)

/-- STRBT (immediate offset) (R257). -/
def execStrbtImm (o : SdtTImmOps) (s : State) : Res State :=
  conditional o.cond s (singleStore .w8 o.rd o.rn (addrSdtTImm o s.cur) s)

/-- LDRBT (immediate offset) (R257). -/
def execLdrbtImm (o : SdtTImmOps) (s : State) : Res State :=
  conditional o.cond s (singleLoad loadByte (writeReg o.rd) o.rn (addrSdtTImm o s.cur) s)

/-- STRH (immediate offset) (R263). -/
def execStrhImm (o : HdtImmOps) (s : State) : Res State :=
  conditional o.cond s (singleStore .w16 o.rd o.rn (addrHdtImm o s.cur) s)

/-- LDRH (immediate offset) (R262). -/
def execLdrhImm (o : HdtImmOps) (s : State) : Res State :=
  conditional o.cond s (singleLoad loadHalf (writeReg o.rd) o.rn (addrHdtImm o s.cur) s)

/-- LDRSB (immediate offset) (R265). -/
def execLdrsbImm (o : HdtImmOps) (s : State) : Res State :=
  conditional o.cond s (singleLoad loadSignedByte (writeReg o.rd) o.rn (addrHdtImm o s.cur) s)

/-- LDRSH (immediate offset) (R264). -/
def execLdrshImm (o : HdtImmOps) (s : State) : Res State :=
  conditional o.cond s (singleLoad loadSignedHalf (writeReg o.rd) o.rn (addrHdtImm o s.cur) s)

/-- LDRD (immediate offset) (R266). -/
def execLdrdImm (o : HdtImmOps) (s : State) : Res State :=
  conditional o.cond s (onA9 (.ldrdImm o) s (doubleLoad (.ldrdImm o) o.rd o.rn (addrHdtImm o s.cur) s))

/-- STRD (immediate offset) (R266). -/
def execStrdImm (o : HdtImmOps) (s : State) : Res State :=
  conditional o.cond s (onA9 (.strdImm o) s (doubleStore (.strdImm o) o.rd o.rn (addrHdtImm o s.cur) s))

/-- STR (register offset) (R254). -/
def execStrReg (o : SdtRegOps) (s : State) : Res State :=
  conditional o.cond s (singleStore .w32 o.rd o.rn (addrSdtReg o s.cur) s)

/-- LDR (register offset) (R252). -/
def execLdrReg (o : SdtRegOps) (s : State) : Res State :=
  conditional o.cond s (singleLoad loadWord (putWord o.rd) o.rn (addrSdtReg o s.cur) s)

/-- STRB (register offset) (R256). -/
def execStrbReg (o : SdtRegOps) (s : State) : Res State :=
  conditional o.cond s (singleStore .w8 o.rd o.rn (addrSdtReg o s.cur) s)

/-- LDRB (register offset) (R255). -/
def execLdrbReg (o : SdtRegOps) (s : State) : Res State :=
  conditional o.cond s (singleLoad loadByte (writeReg o.rd) o.rn (addrSdtReg o s.cur) s)

/-- STRT (register offset) (R257). -/
def execStrtReg (o : SdtTRegOps) (s : State) : Res State :=
  conditional o.cond s (singleStore .w32 o.rd o.rn (addrSdtTReg o s.cur) s)

/-- LDRT (register offset) (R257). -/
def execLdrtReg (o : SdtTRegOps) (s : State) : Res State :=
  conditional o.cond s (singleLoad loadWord (putWord o.rd) o.rn (addrSdtTReg o s.cur) s)

/-- STRBT (register offset) (R257). -/
def execStrbtReg (o : SdtTRegOps) (s : State) : Res State :=
  conditional o.cond s (singleStore .w8 o.rd o.rn (addrSdtTReg o s.cur) s)

/-- LDRBT (register offset) (R257). -/
def execLdrbtReg (o : SdtTRegOps) (s : State) : Res State :=
  conditional o.cond s (singleLoad loadByte (writeReg o.rd) o.rn (addrSdtTReg o s.cur) s)

/-- STRH (register offset) (R263). -/
def execStrhReg (o : HdtRegOps) (s : State) : Res State :=
  conditional o.cond s (singleStore .w16 o.rd o.rn (addrHdtReg o s.cur) s)

/-- LDRH (register offset) (R262). -/
def execLdrhReg (o : HdtRegOps) (s : State) : Res State :=
  conditional o.cond s (singleLoad loadHalf (writeReg o.rd) o.rn (addrHdtReg o s.cur) s)

/-- LDRSB (register offset) (R265). -/
def execLdrsbReg (o : HdtRegOps) (s : State) : Res State :=
  conditional o.cond s (singleLoad loadSignedByte (writeReg o.rd) o.rn (addrHdtReg o s.cur) s)

/-- LDRSH (register offset) (R264). -/
def execLdrshReg (o : HdtRegOps) (s : State) : Res State :=
  conditional o.cond s (singleLoad loadSignedHalf (writeReg o.rd) o.rn (addrHdtReg o s.cur) s)

/-- LDRD (register offset) (R266). -/
def execLdrdReg (o : HdtRegOps) (s : State) : Res State :=
  conditional o.cond s (onA9 (.ldrdReg o) s (doubleLoad (.ldrdReg o) o.rd o.rn (addrHdtReg o s.cur) s))

/-- STRD (register offset) (R266). -/
def execStrdReg (o : HdtRegOps) (s : State) : Res State :=
  conditional o.cond s (onA9 (.strdReg o) s (doubleStore (.strdReg o) o.rd o.rn (addrHdtReg o s.cur) s))

/-- SWP (R300). -/
def execSwp (o : SwpOps) (s : State) : Res State :=
  conditional o.cond s (swap loadWord .w32 o s)

/-- SWPB (R301). -/
def execSwpb (o : SwpOps) (s : State) : Res State :=
  conditional o.cond s (swap loadByte .w8 o s)

/-- PLD (R268): a preload hint; no register changes and no access is made, on either core. -/
def execPld (_o : PldOps) (s : State) : Res State :=
  .next s

end Sys2Proof.Machine
end

