-- ==== Sys2Proof/Machine/Multiply.lean ====
section
/-! DEFINITION. Multiplies, CLZ, saturating arithmetic and half-word multiplies (spec/46_multiply_dsp.md R340 to R365). -/

namespace Sys2Proof.Machine

/-- Where S = 1, N and Z from the result; C and V unchanged (R340, R341; log 18). -/
def setNz (sBit : BitVec 1) (r : Word) (s : State) : State :=
  if sBit = 1 then s.setFlags (nzOnly r s.cur.flags) else s

/-- Where S = 1, N and Z from the 64-bit result (R343). -/
def setNzLong (sBit : BitVec 1) (p : Dword) (s : State) : State :=
  if sBit = 1 then s.setFlags (nzLong p s.cur.flags) else s

/-- The 64-bit accumulator `x[RdHi] :: x[RdLo]` (R344). -/
def accumulator (rdHi rdLo : BitVec 4) (s : State) : Dword := s.x rdHi ++ s.x rdLo

/-- A 64-bit result to two registers, the low half first (R343): with RdHi = RdLo the high half wins. -/
def writeLong (rdHi rdLo : BitVec 4) (p : Dword) (s : State) : Res State :=
  Res.bind (writeReg rdLo (p.extractLsb' 0 32) s) (writeReg rdHi (p.extractLsb' 32 32))

/-- The exact unsigned product (R343). -/
def unsignedProduct (a b : Word) : Dword := a.setWidth 64 * b.setWidth 64

/-- The exact signed product (R345). -/
def signedProduct (a b : Word) : Dword := a.signExtend 64 * b.signExtend 64

/-- A long multiply with its result `p` (R343 to R346). -/
def longMultiply (o : MullOps) (p : Dword) (s : State) : Res State := writeLong o.rdHi o.rdLo p (setNzLong o.s p s)

/-- `SMULWy` and `SMLAWy`: bits 47:16 of the 48-bit product, as an exact integer (R363, R364). -/
def wideProduct (rm : Word) (y : BitVec 1) (rs : Word) : Int := (rm.toInt * (halfOf y rs).toInt) >>> 16

/-- An exact sum kept modulo 2^32, overflow to the sticky Q (R362, R364). -/
def accumulateQ (rd : BitVec 4) (sum : Int) (s : State) : Res State :=
  writeReg rd (BitVec.ofInt 32 sum) (s.orQ (outOfRange sum))

/-- A saturated result with the Q it gives (R352 to R355). -/
def saturated (rd : BitVec 4) (r : Word × Bool) (doubled : Bool) (s : State) : Res State :=
  writeReg rd r.1 (s.orQ (r.2 || doubled))

/-- MUL (R341). -/
def execMul (o : MulOps) (s : State) : Res State :=
  conditional o.cond s (writeReg o.rd (s.x o.rm * s.x o.rs) (setNz o.s (s.x o.rm * s.x o.rs) s))

/-- MLA (R342). -/
def execMla (o : MulOps) (s : State) : Res State :=
  conditional o.cond s
    (writeReg o.rd (s.x o.rm * s.x o.rs + s.x o.rn) (setNz o.s (s.x o.rm * s.x o.rs + s.x o.rn) s))

/-- UMULL (R343). -/
def execUmull (o : MullOps) (s : State) : Res State :=
  conditional o.cond s (longMultiply o (unsignedProduct (s.x o.rm) (s.x o.rs)) s)

/-- UMLAL (R344). -/
def execUmlal (o : MullOps) (s : State) : Res State :=
  conditional o.cond s
    (longMultiply o (unsignedProduct (s.x o.rm) (s.x o.rs) + accumulator o.rdHi o.rdLo s) s)

/-- SMULL (R345). -/
def execSmull (o : MullOps) (s : State) : Res State :=
  conditional o.cond s (longMultiply o (signedProduct (s.x o.rm) (s.x o.rs)) s)

/-- SMLAL (R346). -/
def execSmlal (o : MullOps) (s : State) : Res State :=
  conditional o.cond s
    (longMultiply o (signedProduct (s.x o.rm) (s.x o.rs) + accumulator o.rdHi o.rdLo s) s)

/-- CLZ (R350). -/
def execClz (o : ClzOps) (s : State) : Res State :=
  conditional o.cond s (onA9 (.clz o) s
    (writeReg o.rd (BitVec.ofNat 32 (clz32 (s.x o.rm))) s))

/-- QADD (R352). -/
def execQadd (o : QOps) (s : State) : Res State :=
  conditional o.cond s (onA9 (.qadd o) s
    (saturated o.rd (signedSat32 ((s.x o.rm).toInt + (s.x o.rn).toInt)) false s))

/-- QSUB (R353). -/
def execQsub (o : QOps) (s : State) : Res State :=
  conditional o.cond s (onA9 (.qsub o) s
    (saturated o.rd (signedSat32 ((s.x o.rm).toInt - (s.x o.rn).toInt)) false s))

/-- QDADD (R354). -/
def execQdadd (o : QOps) (s : State) : Res State :=
  conditional o.cond s (onA9 (.qdadd o) s
    (let d := signedSat32 (2 * (s.x o.rn).toInt)
     saturated o.rd (signedSat32 ((s.x o.rm).toInt + d.1.toInt)) d.2 s))

/-- QDSUB (R355). -/
def execQdsub (o : QOps) (s : State) : Res State :=
  conditional o.cond s (onA9 (.qdsub o) s
    (let d := signedSat32 (2 * (s.x o.rn).toInt)
     saturated o.rd (signedSat32 ((s.x o.rm).toInt - d.1.toInt)) d.2 s))

/-- SMLAxy (R362). -/
def execSmlaXy (o : SmulOps) (s : State) : Res State :=
  conditional o.cond s (onA9 (.smlaXy o) s
    (accumulateQ o.rd ((halfOf o.x (s.x o.rm)).toInt * (halfOf o.y (s.x o.rs)).toInt + (s.x o.rn).toInt) s))

/-- SMLAWy (R364). -/
def execSmlawY (o : SmulwOps) (s : State) : Res State :=
  conditional o.cond s (onA9 (.smlawY o) s
    (accumulateQ o.rd (wideProduct (s.x o.rm) o.y (s.x o.rs) + (s.x o.rn).toInt) s))

/-- SMULWy (R363). -/
def execSmulwY (o : SmulwOps) (s : State) : Res State :=
  conditional o.cond s (onA9 (.smulwY o) s
    (writeReg o.rd (BitVec.ofInt 32 (wideProduct (s.x o.rm) o.y (s.x o.rs))) s))

/-- SMLALxy (R365). -/
def execSmlalXy (o : SmlalOps) (s : State) : Res State :=
  conditional o.cond s (onA9 (.smlalXy o) s
    (writeLong o.rdHi o.rdLo
      (accumulator o.rdHi o.rdLo s + signedProduct (halfOf o.x (s.x o.rm)) (halfOf o.y (s.x o.rs))) s))

/-- SMULxy (R361). -/
def execSmulXy (o : SmulOps) (s : State) : Res State :=
  conditional o.cond s (onA9 (.smulXy o) s
    (writeReg o.rd (halfOf o.x (s.x o.rm) * halfOf o.y (s.x o.rs)) s))

end Sys2Proof.Machine
end

