-- ==== Sys2Proof/Machine/System.lean ====
section
/-! DEFINITION. The software interrupt, coprocessor 15 and the unknown instructions (spec/47_system_coproc.md R380 to R391). -/

namespace Sys2Proof.Machine

/-- `Cp15Read(CRn, CRm, opcode2)` (R388): an unlisted register reads any value, a free value (log 17). -/
def cp15Read (crn crm : BitVec 4) (op2 : BitVec 3) (s : State) : Word × State :=
  if crn = 1 ∧ crm = 0 ∧ op2 = 0 then (s.ctl.cp15Control, s)
  else if crn = 9 ∧ crm = 1 ∧ op2 = 0 then (s.ctl.cp15Dtcm, s)
  else if crn = 9 ∧ crm = 1 ∧ op2 = 1 then (s.ctl.cp15Itcm, s)
  else s.draw

/-- The rebuild every write of a TCM register makes (R386, R93). -/
def rebuildA9 (s : State) : State := updateMemoryMap .a9 0 (2 ^ 32) s

/-- The write of a CP15 register (R386 to R388). -/
def cp15Write (crn crm : BitVec 4) (op2 : BitVec 3) (v : Word) (s : State) : State :=
  if crn = 1 ∧ crm = 0 ∧ op2 = 0 then rebuildA9 { s with ctl := { s.ctl with cp15Control := v } }
  else if crn = 9 ∧ crm = 1 ∧ op2 = 0 then rebuildA9 { s with ctl := { s.ctl with cp15Dtcm := v } }
  else if crn = 9 ∧ crm = 1 ∧ op2 = 1 then rebuildA9 { s with ctl := { s.ctl with cp15Itcm := v } }
  else if crn = 7 ∧ ((crm = 0 ∧ op2 = 4) ∨ (crm = 8 ∧ op2 = 2)) then halt .a9 s
  else s

/-- The flags MRC sets with `Rd` = 15 (R385). -/
def mrcFlags (v : Word) : Flags := { n := v.getLsbD 31, z := v.getLsbD 30, c := v.getLsbD 29, v := v.getLsbD 28 }

/-- SWI (R380). -/
def execSwi (o : SwiOps) (s : State) : Res State :=
  conditional o.cond s (raiseSwi s)

/-- MRC p15, 0 (R385). -/
def execMrc (o : CoprocOps) (s : State) : Res State :=
  conditional o.cond s (onA9 (.mrc o) s
    (let r := cp15Read o.crn o.crm o.op2 s
     .next (if o.rd = 15 then r.2.setFlags (mrcFlags r.1) else r.2.setX o.rd r.1)))

/-- MCR p15, 0 (R386). -/
def execMcr (o : CoprocOps) (s : State) : Res State :=
  conditional o.cond s (onA9 (.mcr o) s
    (.next (cp15Write o.crn o.crm o.op2 (s.x o.rd) s)))

/-- MRC / MCR, any other coprocessor or opcode1 (R384). -/
def execCoprocOther (o : CoprocOtherOps) (s : State) : Res State :=
  conditional o.cond s (logUnknown (.coprocOther o) s)

/-- BKPT (R391). -/
def execBkpt (o : BkptOps) (s : State) : Res State :=
  conditional o.cond s (logUnknown (.bkpt o) s)

/-- The unknown instruction, `HDT_REG / HDT_IMM` (R390): logged once its condition has passed (R182). -/
def execUnkDoubleA7 (word : Word) (s : State) : Res State :=
  conditional (word.extractLsb' 28 4) s (logUnknown (.unkDoubleA7 word) s)

/-- The unknown instruction, `UNK_MISC_A` (R390): logged once its condition has passed (R182). -/
def execUnkMiscA (word : Word) (s : State) : Res State :=
  conditional (word.extractLsb' 28 4) s (logUnknown (.unkMiscA word) s)

/-- The unknown instruction, `UNK_MISC_B` (R390): logged once its condition has passed (R182). -/
def execUnkMiscB (word : Word) (s : State) : Res State :=
  conditional (word.extractLsb' 28 4) s (logUnknown (.unkMiscB word) s)

/-- The unknown instruction, `UNK_IMM` (R390): logged once its condition has passed (R182). -/
def execUnkImm (word : Word) (s : State) : Res State :=
  conditional (word.extractLsb' 28 4) s (logUnknown (.unkImm word) s)

/-- The unknown instruction, `UNK_1001` (R390): logged once its condition has passed (R182). -/
def execUnk1001 (word : Word) (s : State) : Res State :=
  conditional (word.extractLsb' 28 4) s (logUnknown (.unk1001 word) s)

/-- The unknown instruction, `UNK_MEDIA` (R390): logged once its condition has passed (R182). -/
def execUnkMedia (word : Word) (s : State) : Res State :=
  conditional (word.extractLsb' 28 4) s (logUnknown (.unkMedia word) s)

/-- The unknown instruction, `UNK_LDC_STC` (R390): logged once its condition has passed (R182). -/
def execUnkLdcStc (word : Word) (s : State) : Res State :=
  conditional (word.extractLsb' 28 4) s (logUnknown (.unkLdcStc word) s)

/-- The unknown instruction, `UNK_CDP` (R390): logged once its condition has passed (R182). -/
def execUnkCdp (word : Word) (s : State) : Res State :=
  conditional (word.extractLsb' 28 4) s (logUnknown (.unkCdp word) s)

/-- The unknown Thumb instruction, class `T_UNK_1011` (R390). -/
def execTUnk1011 (half : Half) (s : State) : Res State :=
  logUnknown (.tUnk1011 half) s

/-- The unknown Thumb instruction, class `T_UNK_DE` (R390). -/
def execTUnkDe (half : Half) (s : State) : Res State :=
  logUnknown (.tUnkDe half) s

/-- The unknown Thumb instruction, class `T_UNK_11101` (R390). -/
def execTUnk11101 (half : Half) (s : State) : Res State :=
  logUnknown (.tUnk11101 half) s

/-- BKPT (R391). -/
def execTBkpt (o : TCommentOps) (s : State) : Res State :=
  logUnknown (.tBkpt o) s

/-- SWI imm8 (R472). -/
def execTSwi (_o : TCommentOps) (s : State) : Res State :=
  raiseSwi s

end Sys2Proof.Machine
end

