-- ==== Sys2Proof/Machine/ThumbA.lean ====
section
/-! DEFINITION. Thumb formats 1 to 8 (spec/48_thumb_a.md R400 to R443). -/

namespace Sys2Proof.Machine

/-- A result to a low register with its flags (R400, R404). -/
def thumbAlu (rd : BitVec 3) (a : Alu) (s : State) : Res State := .next ((s.setX (low rd) a.result).setFlags a.flags)

/-- The flags alone (R409). -/
def thumbCompare (a : Alu) (s : State) : Res State := .next (s.setFlags a.flags)

/-- A logical result, C and V unchanged (R412). -/
def logicalKeepC (r : Word) (k : CoreState) : Alu := { result := r, flags := nzOnly r k.flags }

/-- Format 1: an immediate shift of a low register (R400). -/
def thumbShiftImm (type : ShiftType) (o : TShiftOps) (s : State) : Res State :=
  let r := shiftImm type o.imm5 (s.x (low o.rs)) s.cur.c
  thumbAlu o.rd (logical r.value r.carry s.cur.flags) s

/-- Format 4: a shift of `Rd` by the low byte of `Rs` (R414). -/
def thumbShiftReg (type : ShiftType) (o : TAluOps) (s : State) : Res State :=
  let r := shiftReg type ((s.x (low o.rs)).extractLsb' 0 8) (s.x (low o.rd)) s.cur.c
  thumbAlu o.rd (logical r.value r.carry s.cur.flags) s

/-- A load to a low register: no write-back, never R15 (R436 to R457). -/
def thumbLoad (get : Word → State → Res (Word × State)) (rd : BitVec 3) (addr : Word) (s : State) : Res State :=
  Res.bind (get addr s) fun p => .next (p.2.setX (low rd) p.1)

/-- A store of a low register (R436). -/
def thumbStore (w : Width) (rd : BitVec 3) (addr : Word) (s : State) : Res State := store addr w (s.x (low rd)) s

/-- The address of formats 7 and 8 (R436). -/
def addrThumbReg (o : TRegOffOps) (k : CoreState) : Word := k.reg (low o.rb) + k.reg (low o.ro)

/-- LSL Rd, Rs, #imm5 (R401). -/
def execTLslImm (o : TShiftOps) (s : State) : Res State :=
  thumbShiftImm .lsl o s

/-- LSR Rd, Rs, #imm5 (R402). -/
def execTLsrImm (o : TShiftOps) (s : State) : Res State :=
  thumbShiftImm .lsr o s

/-- ASR Rd, Rs, #imm5 (R403). -/
def execTAsrImm (o : TShiftOps) (s : State) : Res State :=
  thumbShiftImm .asr o s

/-- ADD Rd, Rs, Rn (R404). -/
def execTAddReg (o : TAddRegOps) (s : State) : Res State :=
  thumbAlu o.rd (addWithCarry (s.x (low o.rs)) (s.x (low o.rn)) false) s

/-- SUB Rd, Rs, Rn (R405). -/
def execTSubReg (o : TAddRegOps) (s : State) : Res State :=
  thumbAlu o.rd (addWithCarry (s.x (low o.rs)) (~~~s.x (low o.rn)) true) s

/-- ADD Rd, Rs, #imm3 (R406). -/
def execTAddImm3 (o : TAddImmOps) (s : State) : Res State :=
  thumbAlu o.rd (addWithCarry (s.x (low o.rs)) (o.imm3.setWidth 32) false) s

/-- SUB Rd, Rs, #imm3 (R407). -/
def execTSubImm3 (o : TAddImmOps) (s : State) : Res State :=
  thumbAlu o.rd (addWithCarry (s.x (low o.rs)) (~~~(o.imm3.setWidth 32)) true) s

/-- MOV Rd, #imm8 (R408). -/
def execTMovImm8 (o : TImm8Ops) (s : State) : Res State :=
  thumbAlu o.rd (logicalKeepC (o.imm8.setWidth 32) s.cur) s

/-- CMP Rd, #imm8 (R409). -/
def execTCmpImm8 (o : TImm8Ops) (s : State) : Res State :=
  thumbCompare (addWithCarry (s.x (low o.rd)) (~~~(o.imm8.setWidth 32)) true) s

/-- ADD Rd, #imm8 (R410). -/
def execTAddImm8 (o : TImm8Ops) (s : State) : Res State :=
  thumbAlu o.rd (addWithCarry (s.x (low o.rd)) (o.imm8.setWidth 32) false) s

/-- SUB Rd, #imm8 (R411). -/
def execTSubImm8 (o : TImm8Ops) (s : State) : Res State :=
  thumbAlu o.rd (addWithCarry (s.x (low o.rd)) (~~~(o.imm8.setWidth 32)) true) s

/-- AND Rd, Rs (R412). -/
def execTAnd (o : TAluOps) (s : State) : Res State :=
  thumbAlu o.rd (logicalKeepC (s.x (low o.rd) &&& s.x (low o.rs)) s.cur) s

/-- EOR Rd, Rs (R413). -/
def execTEor (o : TAluOps) (s : State) : Res State :=
  thumbAlu o.rd (logicalKeepC (s.x (low o.rd) ^^^ s.x (low o.rs)) s.cur) s

/-- LSL Rd, Rs (R414). -/
def execTLslReg (o : TAluOps) (s : State) : Res State :=
  thumbShiftReg .lsl o s

/-- LSR Rd, Rs (R415). -/
def execTLsrReg (o : TAluOps) (s : State) : Res State :=
  thumbShiftReg .lsr o s

/-- ASR Rd, Rs (R416). -/
def execTAsrReg (o : TAluOps) (s : State) : Res State :=
  thumbShiftReg .asr o s

/-- ADC Rd, Rs (R417). -/
def execTAdc (o : TAluOps) (s : State) : Res State :=
  thumbAlu o.rd (addWithCarry (s.x (low o.rd)) (s.x (low o.rs)) s.cur.c) s

/-- SBC Rd, Rs (R418). -/
def execTSbc (o : TAluOps) (s : State) : Res State :=
  thumbAlu o.rd (addWithCarry (s.x (low o.rd)) (~~~s.x (low o.rs)) s.cur.c) s

/-- ROR Rd, Rs (R420). -/
def execTRorReg (o : TAluOps) (s : State) : Res State :=
  thumbShiftReg .ror o s

/-- TST Rd, Rs (R421). -/
def execTTst (o : TAluOps) (s : State) : Res State :=
  thumbCompare (logicalKeepC (s.x (low o.rd) &&& s.x (low o.rs)) s.cur) s

/-- NEG Rd, Rs (R419). -/
def execTNeg (o : TAluOps) (s : State) : Res State :=
  thumbAlu o.rd (addWithCarry 0 (~~~s.x (low o.rs)) true) s

/-- CMP Rd, Rs (R422). -/
def execTCmpReg (o : TAluOps) (s : State) : Res State :=
  thumbCompare (addWithCarry (s.x (low o.rd)) (~~~s.x (low o.rs)) true) s

/-- CMN Rd, Rs (R423). -/
def execTCmn (o : TAluOps) (s : State) : Res State :=
  thumbCompare (addWithCarry (s.x (low o.rd)) (s.x (low o.rs)) false) s

/-- ORR Rd, Rs (R424). -/
def execTOrr (o : TAluOps) (s : State) : Res State :=
  thumbAlu o.rd (logicalKeepC (s.x (low o.rd) ||| s.x (low o.rs)) s.cur) s

/-- MUL Rd, Rs (R425). -/
def execTMul (o : TAluOps) (s : State) : Res State :=
  thumbAlu o.rd (logicalKeepC (s.x (low o.rd) * s.x (low o.rs)) s.cur) s

/-- BIC Rd, Rs (R426). -/
def execTBic (o : TAluOps) (s : State) : Res State :=
  thumbAlu o.rd (logicalKeepC (s.x (low o.rd) &&& ~~~s.x (low o.rs)) s.cur) s

/-- MVN Rd, Rs (R427). -/
def execTMvn (o : TAluOps) (s : State) : Res State :=
  thumbAlu o.rd (logicalKeepC (~~~s.x (low o.rs)) s.cur) s

/-- ADD Rd, Rs (high registers) (R430). -/
def execTAddHi (o : THiOps) (s : State) : Res State :=
  writeReg (hiReg o.h1 o.rdLow) (s.x (hiReg o.h1 o.rdLow) + s.x (hiReg o.h2 o.rsLow)) s

/-- CMP Rd, Rs (high registers) (R431). -/
def execTCmpHi (o : THiOps) (s : State) : Res State :=
  thumbCompare (addWithCarry (s.x (hiReg o.h1 o.rdLow)) (~~~s.x (hiReg o.h2 o.rsLow)) true) s

/-- MOV Rd, Rs (high registers) (R432). -/
def execTMovHi (o : THiOps) (s : State) : Res State :=
  writeReg (hiReg o.h1 o.rdLow) (s.x (hiReg o.h2 o.rsLow)) s

/-- BX Rs (R433). -/
def execTBx (o : TBxOps) (s : State) : Res State :=
  exchangeTo (s.x (hiReg o.h2 o.rsLow)) s

/-- BLX Rs (R434). -/
def execTBlxReg (o : TBxOps) (s : State) : Res State :=
  onA9 (.tBlxReg o) s (exchangeTo (s.x (hiReg o.h2 o.rsLow)) (s.setX 14 ((s.x 15 - 2) ||| 1)))

/-- BX Rs (H1 = 1 on core A7) (R433). -/
def execTBxH1 (o : TBxOps) (s : State) : Res State :=
  exchangeTo (s.x (hiReg o.h2 o.rsLow)) s

/-- LDR Rd, [PC, #imm8*4] (R435). -/
def execTLdrPc (o : TImm8Ops) (s : State) : Res State :=
  thumbLoad (fun a t => load a .w32 t) o.rd (s.cur.pcAligned + o.imm8.setWidth 32 * 4) s

/-- STR Rd, [Rb, Ro] (R436). -/
def execTStrReg (o : TRegOffOps) (s : State) : Res State :=
  thumbStore .w32 o.rd (addrThumbReg o s.cur) s

/-- STRB Rd, [Rb, Ro] (R437). -/
def execTStrbReg (o : TRegOffOps) (s : State) : Res State :=
  thumbStore .w8 o.rd (addrThumbReg o s.cur) s

/-- LDR Rd, [Rb, Ro] (R438). -/
def execTLdrReg (o : TRegOffOps) (s : State) : Res State :=
  thumbLoad loadWord o.rd (addrThumbReg o s.cur) s

/-- LDRB Rd, [Rb, Ro] (R439). -/
def execTLdrbReg (o : TRegOffOps) (s : State) : Res State :=
  thumbLoad loadByte o.rd (addrThumbReg o s.cur) s

/-- STRH Rd, [Rb, Ro] (R440). -/
def execTStrhReg (o : TRegOffOps) (s : State) : Res State :=
  thumbStore .w16 o.rd (addrThumbReg o s.cur) s

/-- LDSB Rd, [Rb, Ro] (R441). -/
def execTLdsbReg (o : TRegOffOps) (s : State) : Res State :=
  thumbLoad loadSignedByte o.rd (addrThumbReg o s.cur) s

/-- LDRH Rd, [Rb, Ro] (R442). -/
def execTLdrhReg (o : TRegOffOps) (s : State) : Res State :=
  thumbLoad loadHalf o.rd (addrThumbReg o s.cur) s

/-- LDSH Rd, [Rb, Ro] (R443). -/
def execTLdshReg (o : TRegOffOps) (s : State) : Res State :=
  thumbLoad loadSignedHalf o.rd (addrThumbReg o s.cur) s

end Sys2Proof.Machine
end

