-- ==== Sys2Proof/Machine/ThumbB.lean ====
section
/-! DEFINITION. Thumb formats 9 to 19 (spec/49_thumb_b.md R450 to R482). -/

namespace Sys2Proof.Machine

/-- The address of formats 9 and 10: base plus the scaled 5-bit offset (R450 to R455). -/
def addrThumbImm (scale : Word) (o : TImmOffOps) (k : CoreState) : Word :=
  k.reg (low o.rb) + o.imm5.setWidth 32 * scale

/-- The address of format 11: SP plus the offset (R456, R457). -/
def addrThumbSp (o : TImm8Ops) (k : CoreState) : Word := k.reg 13 + o.imm8.setWidth 32 * 4

/-- The low registers of an 8-bit list, ascending. -/
def lowRegs (rlist : BitVec 8) : List (BitVec 4) := listRegs (rlist.setWidth 16)

/-- What PUSH moves (R462): the listed low registers and LR; an empty list is R297's, with 16 words of room. -/
def pushRegs (c : CoreId) (o : TPushPopOps) : List (BitVec 4) × Nat :=
  if o.rlist = 0 ∧ o.r = 0 then transferRegs c 0
  else (lowRegs o.rlist ++ (if o.r = 1 then [14] else []), (lowRegs o.rlist).length + o.r.toNat)

/-- What POP moves (R463): the listed low registers and PC; an empty list is R297's. -/
def popRegs (c : CoreId) (o : TPushPopOps) : List (BitVec 4) × Nat :=
  if o.rlist = 0 ∧ o.r = 0 then transferRegs c 0
  else (lowRegs o.rlist ++ (if o.r = 1 then [15] else []), (lowRegs o.rlist).length + o.r.toNat)

/-- A Thumb block transfer as its ARM form: IA with write-back (R464, R465). -/
def thumbBlock (o : TBlockOps) : BdtOps :=
  { cond := 14, p := 0, u := 1, s := 0, w := 1, rn := low o.rb, list := o.rlist.setWidth 16 }

/-- LDMIA (R465): as LDM, but a base in the list is not written back on either core. -/
def thumbLoadMultiple (o : TBlockOps) (s : State) : Res State :=
  let regs := transferRegs s.running (o.rlist.setWidth 16)
  let base := s.x (low o.rb)
  Res.bind (loadList regs.1 base s) fun q =>
    let t := if o.rlist.getLsbD o.rb.toNat then q.2 else q.2.setX (low o.rb) (blockWriteBack 1 base regs.2)
    let t := writeList false q.1 t
    match pcOf q.1 with
    | none => .next t
    | some v => loadPc v t

/-- PUSH (R462): a full descending stack. -/
def push (o : TPushPopOps) (s : State) : Res State :=
  let regs := pushRegs s.running o
  let a := blockWriteBack 0 (s.x 13) regs.2
  Res.bind (storeList (regs.1.map fun i => storeReg i s) a s) fun t => .next (t.setX 13 a)

/-- POP (R463): the registers, SP, then R15 by `load_pc`. -/
def pop (o : TPushPopOps) (s : State) : Res State :=
  let regs := popRegs s.running o
  let sp := s.x 13
  Res.bind (loadList regs.1 sp s) fun q =>
    let t := (writeList false q.1 q.2).setX 13 (blockWriteBack 1 sp regs.2)
    match pcOf q.1 with
    | none => .next t
    | some v => loadPc v t

/-- STR Rd, [Rb, #imm5*4] (R450). -/
def execTStrImm (o : TImmOffOps) (s : State) : Res State :=
  thumbStore .w32 o.rd (addrThumbImm 4 o s.cur) s

/-- LDR Rd, [Rb, #imm5*4] (R451). -/
def execTLdrImm (o : TImmOffOps) (s : State) : Res State :=
  thumbLoad loadWord o.rd (addrThumbImm 4 o s.cur) s

/-- STRB Rd, [Rb, #imm5] (R452). -/
def execTStrbImm (o : TImmOffOps) (s : State) : Res State :=
  thumbStore .w8 o.rd (addrThumbImm 1 o s.cur) s

/-- LDRB Rd, [Rb, #imm5] (R453). -/
def execTLdrbImm (o : TImmOffOps) (s : State) : Res State :=
  thumbLoad loadByte o.rd (addrThumbImm 1 o s.cur) s

/-- STRH Rd, [Rb, #imm5*2] (R454). -/
def execTStrhImm (o : TImmOffOps) (s : State) : Res State :=
  thumbStore .w16 o.rd (addrThumbImm 2 o s.cur) s

/-- LDRH Rd, [Rb, #imm5*2] (R455). -/
def execTLdrhImm (o : TImmOffOps) (s : State) : Res State :=
  thumbLoad loadHalf o.rd (addrThumbImm 2 o s.cur) s

/-- STR Rd, [SP, #imm8*4] (R456). -/
def execTStrSp (o : TImm8Ops) (s : State) : Res State :=
  thumbStore .w32 o.rd (addrThumbSp o s.cur) s

/-- LDR Rd, [SP, #imm8*4] (R457). -/
def execTLdrSp (o : TImm8Ops) (s : State) : Res State :=
  thumbLoad loadWord o.rd (addrThumbSp o s.cur) s

/-- ADD Rd, PC, #imm8*4 (R458). -/
def execTAddPc (o : TImm8Ops) (s : State) : Res State :=
  .next (s.setX (low o.rd) (s.cur.pcAligned + o.imm8.setWidth 32 * 4))

/-- ADD Rd, SP, #imm8*4 (R459). -/
def execTAddSp (o : TImm8Ops) (s : State) : Res State :=
  .next (s.setX (low o.rd) (s.x 13 + o.imm8.setWidth 32 * 4))

/-- ADD SP, #imm7*4 (R460). -/
def execTIncSp (o : TAdjOps) (s : State) : Res State :=
  .next (s.setX 13 (s.x 13 + o.imm7.setWidth 32 * 4))

/-- SUB SP, #imm7*4 (R461). -/
def execTDecSp (o : TAdjOps) (s : State) : Res State :=
  .next (s.setX 13 (s.x 13 - o.imm7.setWidth 32 * 4))

/-- PUSH (rlist(, LR)) (R462). -/
def execTPush (o : TPushPopOps) (s : State) : Res State :=
  push o s

/-- POP (rlist(, PC)) (R463). -/
def execTPop (o : TPushPopOps) (s : State) : Res State :=
  pop o s

/-- STMIA Rb!, (rlist) (R464). -/
def execTStmia (o : TBlockOps) (s : State) : Res State :=
  storeMultiple (thumbBlock o) s

/-- LDMIA Rb!, (rlist) (R465). -/
def execTLdmia (o : TBlockOps) (s : State) : Res State :=
  thumbLoadMultiple o s

/-- B<cond> label (R470). -/
def execTBcond (o : TCondOps) (s : State) : Res State :=
  if condPassed o.cond s.cur then branchTo (s.x 15 + (o.soffset ++ 0#1).signExtend 32) s else .next s

/-- B label (R474). -/
def execTB (o : TBranchOps) (s : State) : Res State :=
  branchTo (s.x 15 + (o.offset ++ 0#1).signExtend 32) s

/-- BL / BLX first half (R480). -/
def execTBlPrefix (o : TBranchOps) (s : State) : Res State :=
  .next (s.setX 14 (s.x 15 + (o.offset ++ 0#12).signExtend 32))

/-- BL second half (R481). -/
def execTBlSuffix (o : TBranchOps) (s : State) : Res State :=
  branchTo (s.x 14 + (o.offset.setWidth 32 <<< 1)) (s.setX 14 ((s.x 15 - 2) ||| 1))

/-- BLX second half (R482): core A9; unknown on core A7. -/
def execTBlxSuffix (o : TBranchOps) (s : State) : Res State :=
  onA9 (.tBlxSuffix o) s
    (let target := (s.x 14 + (o.offset.setWidth 32 <<< 1)) &&& 0xFFFFFFFC
     let t := s.setX 14 ((s.x 15 - 2) ||| 1)
     branchTo target (t.setCur (t.cur.setT false)))

end Sys2Proof.Machine
end

