-- ==== Sys2Proof/Machine/Dispatch.lean ====
section
/-! DEFINITION. One arm per instruction: each a direct call of its meaning. -/

namespace Sys2Proof.Machine

def exec (i : Instr) (s : State) : Host.Outcome State Fault Refusal :=
  match i with
  | .andImm h x => Sys2Proof.Machine.execAndImm h x s
  | .andShiftImm h x => Sys2Proof.Machine.execAndShiftImm h x s
  | .andShiftReg h x => Sys2Proof.Machine.execAndShiftReg h x s
  | .eorImm h x => Sys2Proof.Machine.execEorImm h x s
  | .eorShiftImm h x => Sys2Proof.Machine.execEorShiftImm h x s
  | .eorShiftReg h x => Sys2Proof.Machine.execEorShiftReg h x s
  | .subImm h x => Sys2Proof.Machine.execSubImm h x s
  | .subShiftImm h x => Sys2Proof.Machine.execSubShiftImm h x s
  | .subShiftReg h x => Sys2Proof.Machine.execSubShiftReg h x s
  | .rsbImm h x => Sys2Proof.Machine.execRsbImm h x s
  | .rsbShiftImm h x => Sys2Proof.Machine.execRsbShiftImm h x s
  | .rsbShiftReg h x => Sys2Proof.Machine.execRsbShiftReg h x s
  | .addImm h x => Sys2Proof.Machine.execAddImm h x s
  | .addShiftImm h x => Sys2Proof.Machine.execAddShiftImm h x s
  | .addShiftReg h x => Sys2Proof.Machine.execAddShiftReg h x s
  | .adcImm h x => Sys2Proof.Machine.execAdcImm h x s
  | .adcShiftImm h x => Sys2Proof.Machine.execAdcShiftImm h x s
  | .adcShiftReg h x => Sys2Proof.Machine.execAdcShiftReg h x s
  | .sbcImm h x => Sys2Proof.Machine.execSbcImm h x s
  | .sbcShiftImm h x => Sys2Proof.Machine.execSbcShiftImm h x s
  | .sbcShiftReg h x => Sys2Proof.Machine.execSbcShiftReg h x s
  | .rscImm h x => Sys2Proof.Machine.execRscImm h x s
  | .rscShiftImm h x => Sys2Proof.Machine.execRscShiftImm h x s
  | .rscShiftReg h x => Sys2Proof.Machine.execRscShiftReg h x s
  | .tstImm h x => Sys2Proof.Machine.execTstImm h x s
  | .tstShiftImm h x => Sys2Proof.Machine.execTstShiftImm h x s
  | .tstShiftReg h x => Sys2Proof.Machine.execTstShiftReg h x s
  | .teqImm h x => Sys2Proof.Machine.execTeqImm h x s
  | .teqShiftImm h x => Sys2Proof.Machine.execTeqShiftImm h x s
  | .teqShiftReg h x => Sys2Proof.Machine.execTeqShiftReg h x s
  | .cmpImm h x => Sys2Proof.Machine.execCmpImm h x s
  | .cmpShiftImm h x => Sys2Proof.Machine.execCmpShiftImm h x s
  | .cmpShiftReg h x => Sys2Proof.Machine.execCmpShiftReg h x s
  | .cmnImm h x => Sys2Proof.Machine.execCmnImm h x s
  | .cmnShiftImm h x => Sys2Proof.Machine.execCmnShiftImm h x s
  | .cmnShiftReg h x => Sys2Proof.Machine.execCmnShiftReg h x s
  | .orrImm h x => Sys2Proof.Machine.execOrrImm h x s
  | .orrShiftImm h x => Sys2Proof.Machine.execOrrShiftImm h x s
  | .orrShiftReg h x => Sys2Proof.Machine.execOrrShiftReg h x s
  | .movImm h x => Sys2Proof.Machine.execMovImm h x s
  | .movShiftImm h x => Sys2Proof.Machine.execMovShiftImm h x s
  | .movShiftReg h x => Sys2Proof.Machine.execMovShiftReg h x s
  | .bicImm h x => Sys2Proof.Machine.execBicImm h x s
  | .bicShiftImm h x => Sys2Proof.Machine.execBicShiftImm h x s
  | .bicShiftReg h x => Sys2Proof.Machine.execBicShiftReg h x s
  | .mvnImm h x => Sys2Proof.Machine.execMvnImm h x s
  | .mvnShiftImm h x => Sys2Proof.Machine.execMvnShiftImm h x s
  | .mvnShiftReg h x => Sys2Proof.Machine.execMvnShiftReg h x s
  | .mul o => Sys2Proof.Machine.execMul o s
  | .mla o => Sys2Proof.Machine.execMla o s
  | .umull o => Sys2Proof.Machine.execUmull o s
  | .umlal o => Sys2Proof.Machine.execUmlal o s
  | .smull o => Sys2Proof.Machine.execSmull o s
  | .smlal o => Sys2Proof.Machine.execSmlal o s
  | .swp o => Sys2Proof.Machine.execSwp o s
  | .swpb o => Sys2Proof.Machine.execSwpb o s
  | .strhReg o => Sys2Proof.Machine.execStrhReg o s
  | .strhImm o => Sys2Proof.Machine.execStrhImm o s
  | .ldrhReg o => Sys2Proof.Machine.execLdrhReg o s
  | .ldrhImm o => Sys2Proof.Machine.execLdrhImm o s
  | .ldrsbReg o => Sys2Proof.Machine.execLdrsbReg o s
  | .ldrsbImm o => Sys2Proof.Machine.execLdrsbImm o s
  | .ldrshReg o => Sys2Proof.Machine.execLdrshReg o s
  | .ldrshImm o => Sys2Proof.Machine.execLdrshImm o s
  | .ldrdReg o => Sys2Proof.Machine.execLdrdReg o s
  | .ldrdImm o => Sys2Proof.Machine.execLdrdImm o s
  | .strdReg o => Sys2Proof.Machine.execStrdReg o s
  | .strdImm o => Sys2Proof.Machine.execStrdImm o s
  | .unkDoubleA7 word => Sys2Proof.Machine.execUnkDoubleA7 word s
  | .mrs o => Sys2Proof.Machine.execMrs o s
  | .msrCpsrReg o => Sys2Proof.Machine.execMsrCpsrReg o s
  | .msrSpsrReg o => Sys2Proof.Machine.execMsrSpsrReg o s
  | .msrCpsrImm o => Sys2Proof.Machine.execMsrCpsrImm o s
  | .msrSpsrImm o => Sys2Proof.Machine.execMsrSpsrImm o s
  | .bx o => Sys2Proof.Machine.execBx o s
  | .blxReg o => Sys2Proof.Machine.execBlxReg o s
  | .bkpt o => Sys2Proof.Machine.execBkpt o s
  | .clz o => Sys2Proof.Machine.execClz o s
  | .qadd o => Sys2Proof.Machine.execQadd o s
  | .qsub o => Sys2Proof.Machine.execQsub o s
  | .qdadd o => Sys2Proof.Machine.execQdadd o s
  | .qdsub o => Sys2Proof.Machine.execQdsub o s
  | .smlaXy o => Sys2Proof.Machine.execSmlaXy o s
  | .smlawY o => Sys2Proof.Machine.execSmlawY o s
  | .smulwY o => Sys2Proof.Machine.execSmulwY o s
  | .smlalXy o => Sys2Proof.Machine.execSmlalXy o s
  | .smulXy o => Sys2Proof.Machine.execSmulXy o s
  | .strImm o => Sys2Proof.Machine.execStrImm o s
  | .strReg o => Sys2Proof.Machine.execStrReg o s
  | .ldrImm o => Sys2Proof.Machine.execLdrImm o s
  | .ldrReg o => Sys2Proof.Machine.execLdrReg o s
  | .strbImm o => Sys2Proof.Machine.execStrbImm o s
  | .strbReg o => Sys2Proof.Machine.execStrbReg o s
  | .ldrbImm o => Sys2Proof.Machine.execLdrbImm o s
  | .ldrbReg o => Sys2Proof.Machine.execLdrbReg o s
  | .strtImm o => Sys2Proof.Machine.execStrtImm o s
  | .strtReg o => Sys2Proof.Machine.execStrtReg o s
  | .ldrtImm o => Sys2Proof.Machine.execLdrtImm o s
  | .ldrtReg o => Sys2Proof.Machine.execLdrtReg o s
  | .strbtImm o => Sys2Proof.Machine.execStrbtImm o s
  | .strbtReg o => Sys2Proof.Machine.execStrbtReg o s
  | .ldrbtImm o => Sys2Proof.Machine.execLdrbtImm o s
  | .ldrbtReg o => Sys2Proof.Machine.execLdrbtReg o s
  | .stm o => Sys2Proof.Machine.execStm o s
  | .ldm o => Sys2Proof.Machine.execLdm o s
  | .b o => Sys2Proof.Machine.execB o s
  | .bl o => Sys2Proof.Machine.execBl o s
  | .blxLabel o => Sys2Proof.Machine.execBlxLabel o s
  | .pld o => Sys2Proof.Machine.execPld o s
  | .mrc o => Sys2Proof.Machine.execMrc o s
  | .mcr o => Sys2Proof.Machine.execMcr o s
  | .coprocOther o => Sys2Proof.Machine.execCoprocOther o s
  | .swi o => Sys2Proof.Machine.execSwi o s
  | .unkMiscA word => Sys2Proof.Machine.execUnkMiscA word s
  | .unkMiscB word => Sys2Proof.Machine.execUnkMiscB word s
  | .unkImm word => Sys2Proof.Machine.execUnkImm word s
  | .unk1001 word => Sys2Proof.Machine.execUnk1001 word s
  | .unkMedia word => Sys2Proof.Machine.execUnkMedia word s
  | .unkLdcStc word => Sys2Proof.Machine.execUnkLdcStc word s
  | .unkCdp word => Sys2Proof.Machine.execUnkCdp word s
  | .tLslImm o => Sys2Proof.Machine.execTLslImm o s
  | .tLsrImm o => Sys2Proof.Machine.execTLsrImm o s
  | .tAsrImm o => Sys2Proof.Machine.execTAsrImm o s
  | .tAddReg o => Sys2Proof.Machine.execTAddReg o s
  | .tSubReg o => Sys2Proof.Machine.execTSubReg o s
  | .tAddImm3 o => Sys2Proof.Machine.execTAddImm3 o s
  | .tSubImm3 o => Sys2Proof.Machine.execTSubImm3 o s
  | .tMovImm8 o => Sys2Proof.Machine.execTMovImm8 o s
  | .tCmpImm8 o => Sys2Proof.Machine.execTCmpImm8 o s
  | .tAddImm8 o => Sys2Proof.Machine.execTAddImm8 o s
  | .tSubImm8 o => Sys2Proof.Machine.execTSubImm8 o s
  | .tAnd o => Sys2Proof.Machine.execTAnd o s
  | .tEor o => Sys2Proof.Machine.execTEor o s
  | .tLslReg o => Sys2Proof.Machine.execTLslReg o s
  | .tLsrReg o => Sys2Proof.Machine.execTLsrReg o s
  | .tAsrReg o => Sys2Proof.Machine.execTAsrReg o s
  | .tAdc o => Sys2Proof.Machine.execTAdc o s
  | .tSbc o => Sys2Proof.Machine.execTSbc o s
  | .tRorReg o => Sys2Proof.Machine.execTRorReg o s
  | .tTst o => Sys2Proof.Machine.execTTst o s
  | .tNeg o => Sys2Proof.Machine.execTNeg o s
  | .tCmpReg o => Sys2Proof.Machine.execTCmpReg o s
  | .tCmn o => Sys2Proof.Machine.execTCmn o s
  | .tOrr o => Sys2Proof.Machine.execTOrr o s
  | .tMul o => Sys2Proof.Machine.execTMul o s
  | .tBic o => Sys2Proof.Machine.execTBic o s
  | .tMvn o => Sys2Proof.Machine.execTMvn o s
  | .tAddHi o => Sys2Proof.Machine.execTAddHi o s
  | .tCmpHi o => Sys2Proof.Machine.execTCmpHi o s
  | .tMovHi o => Sys2Proof.Machine.execTMovHi o s
  | .tBx o => Sys2Proof.Machine.execTBx o s
  | .tBlxReg o => Sys2Proof.Machine.execTBlxReg o s
  | .tBxH1 o => Sys2Proof.Machine.execTBxH1 o s
  | .tLdrPc o => Sys2Proof.Machine.execTLdrPc o s
  | .tStrReg o => Sys2Proof.Machine.execTStrReg o s
  | .tStrbReg o => Sys2Proof.Machine.execTStrbReg o s
  | .tLdrReg o => Sys2Proof.Machine.execTLdrReg o s
  | .tLdrbReg o => Sys2Proof.Machine.execTLdrbReg o s
  | .tStrhReg o => Sys2Proof.Machine.execTStrhReg o s
  | .tLdsbReg o => Sys2Proof.Machine.execTLdsbReg o s
  | .tLdrhReg o => Sys2Proof.Machine.execTLdrhReg o s
  | .tLdshReg o => Sys2Proof.Machine.execTLdshReg o s
  | .tStrImm o => Sys2Proof.Machine.execTStrImm o s
  | .tLdrImm o => Sys2Proof.Machine.execTLdrImm o s
  | .tStrbImm o => Sys2Proof.Machine.execTStrbImm o s
  | .tLdrbImm o => Sys2Proof.Machine.execTLdrbImm o s
  | .tStrhImm o => Sys2Proof.Machine.execTStrhImm o s
  | .tLdrhImm o => Sys2Proof.Machine.execTLdrhImm o s
  | .tStrSp o => Sys2Proof.Machine.execTStrSp o s
  | .tLdrSp o => Sys2Proof.Machine.execTLdrSp o s
  | .tAddPc o => Sys2Proof.Machine.execTAddPc o s
  | .tAddSp o => Sys2Proof.Machine.execTAddSp o s
  | .tIncSp o => Sys2Proof.Machine.execTIncSp o s
  | .tDecSp o => Sys2Proof.Machine.execTDecSp o s
  | .tPush o => Sys2Proof.Machine.execTPush o s
  | .tPop o => Sys2Proof.Machine.execTPop o s
  | .tBkpt o => Sys2Proof.Machine.execTBkpt o s
  | .tUnk1011 half => Sys2Proof.Machine.execTUnk1011 half s
  | .tStmia o => Sys2Proof.Machine.execTStmia o s
  | .tLdmia o => Sys2Proof.Machine.execTLdmia o s
  | .tBcond o => Sys2Proof.Machine.execTBcond o s
  | .tUnkDe half => Sys2Proof.Machine.execTUnkDe half s
  | .tSwi o => Sys2Proof.Machine.execTSwi o s
  | .tB o => Sys2Proof.Machine.execTB o s
  | .tBlPrefix o => Sys2Proof.Machine.execTBlPrefix o s
  | .tBlSuffix o => Sys2Proof.Machine.execTBlSuffix o s
  | .tBlxSuffix o => Sys2Proof.Machine.execTBlxSuffix o s
  | .tUnk11101 half => Sys2Proof.Machine.execTUnk11101 half s

end Sys2Proof.Machine
end

