-- ==== Sys2Proof/Machine/Owner.lean ====
section
/-! DEFINITION. What the owner does (spec/60_exceptions.md R541 to R550; spec/70_reset_and_hazards.md R570 to R576) and the run
loop of a core (spec/40_fetch_dispatch_cond.md R170 to R178). -/

namespace Sys2Proof.Machine

/-- `reset(c)` on the core's own state (R570): the page tables and the registry stay (R571). -/
def CoreState.resetCore (k : CoreState) : CoreState :=
  { CoreState.cleared with pageTable := k.pageTable, mmio := k.mmio }

/-- `reset(c)` (R570): on core A9 also the CP15 registers, with a rebuild of its tables. -/
def resetCore (c : CoreId) (s : State) : State :=
  let t := s.setCore c (s.core c).resetCore
  match c with
  | .a7 => t
  | .a9 =>
    updateMemoryMap .a9 0 (2 ^ 32)
      { t with ctl := { t.ctl with cp15Control := Params.resetCp15Control, cp15Dtcm := 0, cp15Itcm := 0 } }

/-- `direct_boot(c, entry)` (R573): the three stack pointers, R12 and R14, System mode, and a flush at the entry. -/
def directBoot (c : CoreId) (entry : Word) (s : State) : Res State :=
  Res.bind (switchMode 0x12 ({ s with running := c }.setX 13 (s.par.bootSpSvc.get c))) fun t =>
    Res.bind (switchMode 0x1F (t.setX 13 (s.par.bootSpIrq.get c))) fun u =>
      let v := ((u.setX 13 (s.par.bootSpSys.get c)).setX 12 entry).setX 14 entry
      branchTo entry (v.setCur { v.cur with booted := true })

/-- Code copied by the loader through a core's view, byte by byte (R574, R117). -/
def loadBytes (c : CoreId) : Word → List Byte → State → Res State
  | _, [], s => .next s
  | a, b :: rest, s => Res.bind (memWrite c a .w8 (b.setWidth 32) s) (loadBytes c (a + 1) rest)

/-- `construct(bios_image_A7, bios_image_A9)` (R572), for given parameters: without an image, the hard fault `MissingBios`.
DESIGN CHOICE (log 5): an image of another size than `BIOS_SIZE`, which R572 puts outside the block, is accepted; its bytes
past `BIOS_SIZE` are dropped, and a shorter one reads 0 past its end. -/
def construct (par : Parameters) (imageA7 imageA9 : Option (List Byte)) : State :=
  match imageA7 with
  | none => { State.initial par with fault := some (.missingBios .a7) }
  | some img7 =>
    match imageA9 with
    | none => { State.initial par with fault := some (.missingBios .a9) }
    | some img9 =>
      { State.initial par with
        buf := { Buffers.zero with biosA7 := Memory.ofBytes 0 (img7.take (par.biosSize.get .a7)),
                                   biosA9 := Memory.ofBytes 0 (img9.take (par.biosSize.get .a9)) } }

/-- The program counter's advance (R177): none after a `pc <-`. -/
def advance (width : Word) (s : State) : State := if s.branched then s else s.setX 15 (s.x 15 + width)

/-- A cost on the timestamp (R178). -/
def addCycles (n : Dword) (s : State) : State := s.setCur { s.cur with timestamp := s.cur.timestamp + n }

/-- The instruction's condition fails (R181, R182, R136, R470): PLD has none, BLX label has none on core A9. -/
def conditionFails (c : CoreId) (code : Code) (i : Instr) (k : CoreState) : Bool :=
  match i with
  | .pld _ => false
  | .blxLabel _ => c == .a7
  | .tBcond o => !condPassed o.cond k
  | _ =>
    match code with
    | .arm w => !condPassed (w.extractLsb' 28 4) k
    | .thumb _ => false

/-- `CYCLES(instruction)` (R178): one cycle where the condition failed, else the parameter's entry for the row of the opcode
table, whose rows `Instr` has in order; 1 where it lists none. -/
def cyclesOf (par : Parameters) (c : CoreId) (code : Code) (i : Instr) (k : CoreState) : Dword :=
  if conditionFails c code i k then 1
  else
    match par.cycles.find? fun e => e.1 == i.ctorIdx with
    | some e => e.2
    | none => 1

/-- The prefetch that opens a step (R173): the slots move up, the word at `R[15]` comes in, `branched` is cleared. -/
def prefetch (w : Width) (s : State) : Res State :=
  Res.bind (load (s.x 15) w (s.setPipe s.cur.pipe1 s.cur.pipe1)) fun p =>
    .next { p.2.setPipe p.2.cur.pipe0 p.1 with branched := false }

/-- The code in `pipe[0]` under the instruction set in force (R173). -/
def nextCode (k : CoreState) : Code := if k.t then .thumb (k.pipe0.setWidth 16) else .arm k.pipe0

/-- `step(c)` of the running core (R173): prefetch, execute, advance, count. -/
def coreStep (s : State) : Res State :=
  let thumb := s.cur.t
  let code := nextCode s.cur
  let i := decode s.running code
  Res.bind (prefetch (if thumb then .w16 else .w32) s) fun t =>
    Res.bind (exec i t) fun u =>
      .next (addCycles (cyclesOf s.par s.running code i s.cur) (advance (if thumb then 2 else 4) u))

/-- The boundary test (R172): the IRQ exception if the latch is set and `CPSR.I` = 0; it adds no cycles. -/
def boundary (s : State) : Res State := if s.cur.irqLatch && !s.cur.iBit then raiseIrq s else .next s

/-- The owner's call in progress is over. -/
def State.pop (s : State) : State := { s with owner := s.owner.tail }

/-- One iteration of `run(c, target)` (R170, R171, R576); the call ends when the target is reached or the core is halted. -/
def runOnce (c : CoreId) (target : Dword) (s : State) : Res State :=
  let k := s.core c
  if k.booted = false then .next s.pop
  else if target.toNat ≤ k.timestamp.toNat then .next s.pop
  else if k.halted then .next (s.setCore c { k with timestamp := target }).pop
  else Res.bind (boundary { s with running := c }) coreStep

/-- One turn of `run_events()` (R545): the front event if it is due, else the call ends. -/
def fireOne (s : State) : Res State :=
  match s.queue with
  | [] => .next s.pop
  | (t, id) :: rest =>
    if s.currentTime.toNat < t.toNat then .next s.pop
    else
      match s.events.find? fun e => e.id == id with
      | none => .refused (.unregisteredEvent id)
      | some e => runScript e.callback { s with queue := rest }

/-- The slice the reference owner runs next (R550), in u64 arithmetic that wraps (00_scope.md section 6.1; log 2). -/
def ownerSlice (s : State) : List OwnerCall :=
  let burst : Nat := Config.burstLessOne.toNat + 1
  let d : Nat :=
    match s.queue with
    | [] => burst
    | e :: _ => min burst (max (e.1 - s.currentTime).toNat 1)
  let t : Dword := s.currentTime + BitVec.ofNat 64 d
  [.run .a9 (t * s.par.clockRatio.get .a9), .run .a7 (t * s.par.clockRatio.get .a7), .tick (BitVec.ofNat 64 d), .runEvents]

/-- The owner's next action (R6, R550): the call at the head of the list, or a new slice. -/
def ownerStep (s : State) : Res State :=
  match s.owner with
  | [] => .next { s with owner := ownerSlice s }
  | .run c target :: _ => runOnce c target s
  | .runEvents :: _ => fireOne s
  | .tick d :: _ => .next (tick d s.pop)
  | .reset c :: _ => .next (resetCore c s.pop)
  | .directBoot c entry :: _ => directBoot c entry s.pop
  | .registerEvent name callback f :: _ =>
    let r := registerEvent name callback s.pop
    .next (r.2.setField f (BitVec.ofNat 64 r.1))
  | .registerMmio c r :: _ => .next (registerMmio c r s.pop)
  | .load c a bytes :: _ => loadBytes c a bytes s.pop
  | .act script :: _ => runScript script s.pop

end Sys2Proof.Machine
end

