-- ==== Sys2Proof/Machine/Step.lean ====
section
/-! DEFINITION. One step of the machine: the owner's next action, which is one iteration of a core's run loop, one event, or one
call of the interface (log 1); and where the next instruction is fetched. -/

namespace Sys2Proof.Machine

/-- One step. After a hard fault no agent has a step (R510). -/
def step (s : State) : Host.Outcome State Fault Refusal :=
  match s.fault with
  | some f => .fault f
  | none => ownerStep s

/-- Where `withFetchWord` places a program: the first byte of main RAM (R84). -/
def fetchBase : Word := 0x02000000

/-- The core with the instruction at `fetchBase` next to execute: the pipeline as the flush of R174 leaves it, runnable. -/
def CoreState.atFetchBase (k : CoreState) (thumb : Bool) (p0 p1 : Word) : CoreState :=
  { (k.setReg 15 (if thumb then fetchBase + 4 else fetchBase + 8)).setT thumb with
    pipe0 := p0, pipe1 := p1, booted := true, halted := false, ime := false, irqLatch := false, timestamp := 0 }

/-- The state with one instruction loaded where the next step executes it, standing for the loader and `direct_boot` (log 3):
the word in main RAM, the pipeline filled from there, the core booted, and the owner's `run` of that core pending. -/
def State.withFetchWord (s : State) (nbits w : Nat) : State :=
  let code := tableCode nbits w
  let c := tableCore code
  let thumb := decide (nbits ≤ 16)
  let word : Word := if thumb then (BitVec.ofNat 16 w).setWidth 32 else BitVec.ofNat 32 w
  let ram := writeBytes s.buf.mainRam 0 .w32 word
  let p1 := if thumb then readBytes ram 2 .w16 else readBytes ram 4 .w32
  let t := { s.setCells .mainRam ram with fault := none, owner := [.run c (BitVec.allOnes 64)] }
  t.setCore c ((t.core c).atFetchBase thumb word p1)

end Sys2Proof.Machine
end

