-- ==== Sys2Proof/Safety.lean ====
section
/-! DEFINITION. The invariant of the machine: what the spec says holds of every state, in the terms the statements use. -/

namespace Sys2Proof.Machine

/-- `CPSR.M` is one of the seven modes (R14). -/
def CoreState.ModeLegal (k : CoreState) : Prop := (bankOf k.mode).isSome = true

/-- The latch equals its expression (R31). -/
def CoreState.LatchExact (k : CoreState) : Prop := k.irqLatch = (k.ime && (k.ie &&& k.ifl) != 0)

/-- `R[15]` is a multiple of the instruction width (R19). -/
def CoreState.PcAligned (k : CoreState) : Prop := k.pc &&& (if k.t then 1 else 3) = 0

/-- In Thumb mode the slots hold half-words, zero-extended (R28). -/
def CoreState.PipeNarrow (k : CoreState) : Prop := k.t = true → k.pipe0.toNat < 2 ^ 16 ∧ k.pipe1.toNat < 2 ^ 16

/-- The invariant of one core. -/
structure CoreState.Inv (k : CoreState) : Prop where
  mode  : k.ModeLegal
  latch : k.LatchExact
  pc    : k.PcAligned
  pipe  : k.PipeNarrow

/-- The scheduler's queue is in ascending time (R37). -/
def State.QueueAscending (s : State) : Prop := s.queue.Pairwise fun x y => x.1.toNat ≤ y.1.toNat

/-- Event handles are the numbers below `next_id`, each once (R541). -/
def State.HandlesFresh (s : State) : Prop :=
  s.events.Pairwise (fun x y => x.id ≠ y.id) ∧ ∀ e ∈ s.events, e.id < s.nextId

/-- The invariant of the machine. -/
structure State.Inv (s : State) : Prop where
  a7      : s.a7.Inv
  a9      : s.a9.Inv
  memory  : s.buf.wf
  fields  : Memory.wf s.fields
  queue   : s.QueueAscending
  handles : s.HandlesFresh

/-- A run stays safe as long as no step faults or is refused. -/
def SafeFor : Nat → State → Prop
  | 0, _ => True
  | k + 1, s => ∃ t, step s = .next t ∧ SafeFor k t

/-! The terms of the statements. -/

/-- What a read gives where reading changes nothing (R77, R106): the bytes of a backing buffer, or a fixed value. -/
def plainRead (c : CoreId) (a : Word) (w : Width) (s : State) : Option Word :=
  match locate c (alignDown a w) .read s with
  | .buffer b o => some (readBytes (s.buf.cells b) o w)
  | .fixed v => some (truncate w v)
  | _ => none

/-- The width of an instruction fetch (R107); `thumb` is `CPSR.T`. -/
def fetchWidth (thumb : Bool) : Width := if thumb then .w16 else .w32

/-- The bytes of an instruction (R177). -/
def fetchStep (thumb : Bool) : Word := if thumb then 2 else 4

/-- Where a flush to `target` fetches from (R174). -/
def fetchAddr (thumb : Bool) (target : Word) : Word := if thumb then target &&& 0xFFFFFFFE else target &&& 0xFFFFFFFC

/-- The two reads of a flush to `target` find `p0` and `p1` (R174), in memory whose reading changes nothing. -/
def Fetches (thumb : Bool) (target : Word) (s : State) (p0 p1 : Word) : Prop :=
  plainRead s.running (fetchAddr thumb target) (fetchWidth thumb) s = some p0 ∧
  plainRead s.running (fetchAddr thumb target + fetchStep thumb) (fetchWidth thumb) s = some p1

/-- The state with the pipeline refilled from `target` (R174). -/
def State.refilled (thumb : Bool) (target p0 p1 : Word) (s : State) : State :=
  { (s.setPipe p0 p1).setX 15 (fetchAddr thumb target + fetchStep thumb + fetchStep thumb) with branched := true }

/-- What no register write, flag write or jump touches: everything but the executing core's live registers, its status
register and its pipeline, and but memory. -/
structure Kept (s t : State) : Prop where
  running     : t.running = s.running
  other       : ∀ c, c ≠ s.running → t.core c = s.core c
  par         : t.par = s.par
  ctl         : t.ctl = s.ctl
  fields      : t.fields = s.fields
  currentTime : t.currentTime = s.currentTime
  queue       : t.queue = s.queue
  events      : t.events = s.events
  nextId      : t.nextId = s.nextId
  fault       : t.fault = s.fault
  owner       : t.owner = s.owner
  freeCount   : t.freeCount = s.freeCount
  bankR13     : t.cur.bankR13 = s.cur.bankR13
  bankR14     : t.cur.bankR14 = s.cur.bankR14
  fiqR8       : t.cur.fiqR8 = s.cur.fiqR8
  nonfiqR8    : t.cur.nonfiqR8 = s.cur.nonfiqR8
  spsr        : t.cur.spsr = s.cur.spsr
  halted      : t.cur.halted = s.cur.halted
  timestamp   : t.cur.timestamp = s.cur.timestamp
  ime         : t.cur.ime = s.cur.ime
  ie          : t.cur.ie = s.cur.ie
  ifl         : t.cur.ifl = s.cur.ifl
  irqLatch    : t.cur.irqLatch = s.cur.irqLatch
  booted      : t.cur.booted = s.cur.booted
  unknownLog  : t.cur.unknownLog = s.cur.unknownLog
  pageTable   : t.cur.pageTable = s.cur.pageTable
  mmio        : t.cur.mmio = s.cur.mmio

/-- Every live register but the listed ones is unchanged. -/
def RegsKept (regs : List (BitVec 4)) (s t : State) : Prop := ∀ i, i ∉ regs → t.x i = s.x i

/-- Every bit of the status register outside `mask` is unchanged. -/
def StatusKept (mask : Word) (s t : State) : Prop := t.cur.cpsr &&& ~~~mask = s.cur.cpsr &&& ~~~mask

/-- The pipeline is unchanged, and no flush happened. -/
def PipeKept (s t : State) : Prop :=
  t.cur.pipe0 = s.cur.pipe0 ∧ t.cur.pipe1 = s.cur.pipe1 ∧ t.branched = s.branched

/-- Every byte of memory is unchanged. -/
def MemoryKept (s t : State) : Prop := ∀ b o, t.byteAt b o = s.byteAt b o

/-- The frame of an instruction that neither jumps nor stores: it may write the listed registers and the masked status bits. -/
structure Frame (regs : List (BitVec 4)) (mask : Word) (s t : State) : Prop where
  kept   : Kept s t
  regs   : RegsKept regs s t
  status : StatusKept mask s t
  pipe   : PipeKept s t
  memory : MemoryKept s t

/-- The frame of a jump: as `Frame`, but R15 and the pipeline change. -/
structure JumpFrame (regs : List (BitVec 4)) (mask : Word) (s t : State) : Prop where
  kept   : Kept s t
  regs   : RegsKept (15 :: regs) s t
  status : StatusKept mask s t
  memory : MemoryKept s t

/-- The frame of a store: as `Frame`, memory apart. -/
structure StoreFrame (regs : List (BitVec 4)) (s t : State) : Prop where
  kept   : Kept s t
  regs   : RegsKept regs s t
  status : StatusKept 0 s t
  pipe   : PipeKept s t

/-- The bytes of `v` stand from byte `o` of buffer `b` on, `w` wide, and every other byte is as it was (R73, R74). -/
def StoredAt (b : Buf) (o : Nat) (w : Width) (v : Word) (s t : State) : Prop :=
  (∀ i, i < widthBytes w → t.byteAt b (o + i) = byteOf v i) ∧
  ∀ b' o', (b' ≠ b ∨ o' < o ∨ o + widthBytes w ≤ o') → t.byteAt b' o' = s.byteAt b' o'

/-- The condition flags, all four. -/
def nzcvMask : Word := 0xF0000000

/-- The flags of a logical result (R209). -/
def logicalFlags (r : Word) (carry : Bool) (s : State) : Flags := { n := r.getLsbD 31, z := r == 0, c := carry, v := s.cur.v }

/-- A sum with a carry in, modulo 2^32. -/
def sumWord (a b : Word) (cin : Bool) : Word := a + b + (BitVec.ofBool cin).setWidth 32

/-- Its flags, in terms of integers: C is the unsigned carry out, V the signed overflow (R210). -/
def sumFlags (a b : Word) (cin : Bool) : Flags :=
  let r := sumWord a b cin
  { n := r.getLsbD 31, z := r == 0, c := decide (2 ^ 32 ≤ a.toNat + b.toNat + cin.toNat),
    v := outOfRange (a.toInt + b.toInt + cin.toNat) }

/-- A difference with a carry (= not borrow) in, modulo 2^32. -/
def diffWord (a b : Word) (cin : Bool) : Word := a - b - (BitVec.ofBool (!cin)).setWidth 32

/-- Its flags, in terms of integers: C = 1 means no borrow, V the signed overflow (R210, R216, R220). -/
def diffFlags (a b : Word) (cin : Bool) : Flags :=
  let r := diffWord a b cin
  { n := r.getLsbD 31, z := r == 0, c := decide (b.toNat + (!cin).toNat ≤ a.toNat),
    v := outOfRange (a.toInt - b.toInt - (!cin).toNat) }

/-- A sum and a difference with their flags. -/
def sumResult (a b : Word) (cin : Bool) : Word × Flags := (sumWord a b cin, sumFlags a b cin)
def diffResult (a b : Word) (cin : Bool) : Word × Flags := (diffWord a b cin, diffFlags a b cin)

/-! How a result is written. -/

/-- One register's result: the condition it waits for, the register, its value, the flags and Q afterwards, and the status
bits it may change. -/
structure Result where
  cond  : BitVec 4
  rd    : BitVec 4
  value : Word
  flags : Flags
  q     : Bool
  mask  : Word

/-- The flush went to `target` (R174): the program counter two instructions on, the pipeline filled. -/
def JumpedTo (thumb : Bool) (target p0 p1 : Word) (t : State) : Prop :=
  t.x 15 = fetchAddr thumb target + fetchStep thumb + fetchStep thumb ∧ t.cur.pipe0 = p0 ∧ t.cur.pipe1 = p1 ∧
  t.cur.t = thumb ∧ t.branched = true

/-- The instruction completes with this result: the register, the flags, nothing else; a result for R15 is a jump in the
instruction set in force (R200, R211, R250). -/
def Result.Completes (i : Instr) (r : Result) (s : State) : Prop :=
  (r.rd ≠ 15 → ∃ t, exec i s = .next t ∧ t.x r.rd = r.value ∧ t.cur.flags = r.flags ∧ t.cur.q = r.q ∧
    Frame [r.rd] r.mask s t) ∧
  (r.rd = 15 → ∀ p0 p1, Fetches s.cur.t r.value s p0 p1 → ∃ t, exec i s = .next t ∧ JumpedTo s.cur.t r.value p0 p1 t ∧
    t.cur.flags = r.flags ∧ t.cur.q = r.q ∧ JumpFrame [] r.mask s t)

/-- The instruction completes with these flags and no other change (R213). -/
def FlagsComplete (i : Instr) (f : Flags) (s : State) : Prop :=
  ∃ t, exec i s = .next t ∧ t.cur.flags = f ∧ Frame [] nzcvMask s t

/-- The sticky Q bit alone (R20). -/
def qMask : Word := 0x08000000

/-- The T bit alone (R20). -/
def tMask : Word := 0x00000020

/-! Data processing (spec/41_data_processing.md). -/

/-- Operand 2 in its three forms (R200). -/
inductive Operand2 where
  | imm (x : ImmOperand)
  | shiftImm (x : ShiftImmOperand)
  | shiftReg (x : ShiftRegOperand)

/-- The first operand: with a register shift R15 reads four bytes further on (R207). -/
def Operand2.first (o : Operand2) (rn : BitVec 4) (k : CoreState) : Word :=
  match o with
  | .shiftReg _ => k.regPlus4 rn
  | _ => k.reg rn

/-- The second operand with the shifter's carry (R201 to R207). -/
def Operand2.second (o : Operand2) (k : CoreState) : Shifted :=
  match o with
  | .imm x => operandImm x k
  | .shiftImm x => operandShiftImm x k
  | .shiftReg x => operandShiftReg x k

/-- AND, EOR, ORR, MOV, BIC, MVN: the result from the two operands (R214, R215, R226 to R229). -/
def logicalOp : Instr → Option (DpHead × Operand2 × (Word → Word → Word))
  | .andImm h x => some (h, .imm x, fun a b => a &&& b)
  | .andShiftImm h x => some (h, .shiftImm x, fun a b => a &&& b)
  | .andShiftReg h x => some (h, .shiftReg x, fun a b => a &&& b)
  | .eorImm h x => some (h, .imm x, fun a b => a ^^^ b)
  | .eorShiftImm h x => some (h, .shiftImm x, fun a b => a ^^^ b)
  | .eorShiftReg h x => some (h, .shiftReg x, fun a b => a ^^^ b)
  | .orrImm h x => some (h, .imm x, fun a b => a ||| b)
  | .orrShiftImm h x => some (h, .shiftImm x, fun a b => a ||| b)
  | .orrShiftReg h x => some (h, .shiftReg x, fun a b => a ||| b)
  | .movImm h x => some (h, .imm x, fun _ b => b)
  | .movShiftImm h x => some (h, .shiftImm x, fun _ b => b)
  | .movShiftReg h x => some (h, .shiftReg x, fun _ b => b)
  | .bicImm h x => some (h, .imm x, fun a b => a &&& ~~~b)
  | .bicShiftImm h x => some (h, .shiftImm x, fun a b => a &&& ~~~b)
  | .bicShiftReg h x => some (h, .shiftReg x, fun a b => a &&& ~~~b)
  | .mvnImm h x => some (h, .imm x, fun _ b => ~~~b)
  | .mvnShiftImm h x => some (h, .shiftImm x, fun _ b => ~~~b)
  | .mvnShiftReg h x => some (h, .shiftReg x, fun _ b => ~~~b)
  | _ => none

/-- SUB, RSB, ADD, ADC, SBC, RSC: the result and the flags from the two operands and the carry (R216 to R221). -/
def arithmeticOp : Instr → Option (DpHead × Operand2 × (Word → Word → Bool → Word × Flags))
  | .subImm h x => some (h, .imm x, fun a b _ => diffResult a b true)
  | .subShiftImm h x => some (h, .shiftImm x, fun a b _ => diffResult a b true)
  | .subShiftReg h x => some (h, .shiftReg x, fun a b _ => diffResult a b true)
  | .rsbImm h x => some (h, .imm x, fun a b _ => diffResult b a true)
  | .rsbShiftImm h x => some (h, .shiftImm x, fun a b _ => diffResult b a true)
  | .rsbShiftReg h x => some (h, .shiftReg x, fun a b _ => diffResult b a true)
  | .addImm h x => some (h, .imm x, fun a b _ => sumResult a b false)
  | .addShiftImm h x => some (h, .shiftImm x, fun a b _ => sumResult a b false)
  | .addShiftReg h x => some (h, .shiftReg x, fun a b _ => sumResult a b false)
  | .adcImm h x => some (h, .imm x, fun a b c => sumResult a b c)
  | .adcShiftImm h x => some (h, .shiftImm x, fun a b c => sumResult a b c)
  | .adcShiftReg h x => some (h, .shiftReg x, fun a b c => sumResult a b c)
  | .sbcImm h x => some (h, .imm x, fun a b c => diffResult a b c)
  | .sbcShiftImm h x => some (h, .shiftImm x, fun a b c => diffResult a b c)
  | .sbcShiftReg h x => some (h, .shiftReg x, fun a b c => diffResult a b c)
  | .rscImm h x => some (h, .imm x, fun a b c => diffResult b a c)
  | .rscShiftImm h x => some (h, .shiftImm x, fun a b c => diffResult b a c)
  | .rscShiftReg h x => some (h, .shiftReg x, fun a b c => diffResult b a c)
  | _ => none

/-- TST, TEQ, CMP, CMN: the flags from the two operands (R222 to R225). -/
def compareOp : Instr → Option (CmpHead × Operand2 × (Word → Shifted → State → Flags))
  | .tstImm h x => some (h, .imm x, fun a b s => logicalFlags (a &&& b.value) b.carry s)
  | .tstShiftImm h x => some (h, .shiftImm x, fun a b s => logicalFlags (a &&& b.value) b.carry s)
  | .tstShiftReg h x => some (h, .shiftReg x, fun a b s => logicalFlags (a &&& b.value) b.carry s)
  | .teqImm h x => some (h, .imm x, fun a b s => logicalFlags (a ^^^ b.value) b.carry s)
  | .teqShiftImm h x => some (h, .shiftImm x, fun a b s => logicalFlags (a ^^^ b.value) b.carry s)
  | .teqShiftReg h x => some (h, .shiftReg x, fun a b s => logicalFlags (a ^^^ b.value) b.carry s)
  | .cmpImm h x => some (h, .imm x, fun a b _ => diffFlags a b.value true)
  | .cmpShiftImm h x => some (h, .shiftImm x, fun a b _ => diffFlags a b.value true)
  | .cmpShiftReg h x => some (h, .shiftReg x, fun a b _ => diffFlags a b.value true)
  | .cmnImm h x => some (h, .imm x, fun a b _ => sumFlags a b.value false)
  | .cmnShiftImm h x => some (h, .shiftImm x, fun a b _ => sumFlags a b.value false)
  | .cmnShiftReg h x => some (h, .shiftReg x, fun a b _ => sumFlags a b.value false)
  | _ => none

/-- A data-processing result that is not an exception return: the S bit asks for the flags (R200, R211). -/
def dpResult (h : DpHead) (value : Word) (flags : Flags) (s : State) : Result :=
  { cond := h.cond, rd := h.rd, value := value, flags := if h.s = 1 then flags else s.cur.flags, q := s.cur.q,
    mask := if h.s = 1 then nzcvMask else 0 }

/-- The head and the result of the logical and arithmetic instructions with their flags. -/
def dpValue (i : Instr) (s : State) : Option (DpHead × Word × Flags) :=
  match logicalOp i, arithmeticOp i with
  | some (h, o, f), _ =>
    let r := f (o.first h.rn s.cur) (o.second s.cur).value
    some (h, r, logicalFlags r (o.second s.cur).carry s)
  | none, some (h, o, f) =>
    let r := f (o.first h.rn s.cur) (o.second s.cur).value s.cur.c
    some (h, r.1, r.2)
  | none, none => none

/-! Multiplies and signal processing (spec/46_multiply_dsp.md). -/

/-- N and Z from a result, C and V as they were, if the S bit asks (R340). -/
def nzFlags (sBit : BitVec 1) (n z : Bool) (s : State) : Flags :=
  if sBit = 1 then { n := n, z := z, c := s.cur.c, v := s.cur.v } else s.cur.flags

/-- An integer cut to the signed 32-bit range (R351). -/
def clamp (v : Int) : Int := max (-(2 ^ 31)) (min (2 ^ 31 - 1) v)

/-- The signed half-word a multiply selects (R360). -/
def halfInt (sel : BitVec 1) (v : Word) : Int := (v.extractLsb' (16 * sel.toNat) 16).toInt

/-- MUL and MLA from exact products (R341, R342). -/
def multiplyResult (s : State) : Instr → Option Result
  | .mul o =>
    let r := BitVec.ofNat 32 ((s.x o.rm).toNat * (s.x o.rs).toNat)
    some { cond := o.cond, rd := o.rd, value := r, flags := nzFlags o.s (r.getLsbD 31) (r == 0) s, q := s.cur.q,
           mask := if o.s = 1 then nzcvMask else 0 }
  | .mla o =>
    let r := BitVec.ofNat 32 ((s.x o.rm).toNat * (s.x o.rs).toNat + (s.x o.rn).toNat)
    some { cond := o.cond, rd := o.rd, value := r, flags := nzFlags o.s (r.getLsbD 31) (r == 0) s, q := s.cur.q,
           mask := if o.s = 1 then nzcvMask else 0 }
  | _ => none

/-- A result of the ARMv5 instructions: no flag but the sticky Q, which `sat` sets (R351). -/
def dspResult (cond rd : BitVec 4) (value : Int) (sat : Bool) (s : State) : Result :=
  { cond := cond, rd := rd, value := BitVec.ofInt 32 value, flags := s.cur.flags, q := s.cur.q || sat, mask := qMask }

/-- CLZ, the saturating instructions and the signed half-word multiplies, from exact integers (R350 to R364). -/
def dspOp (s : State) : Instr → Option Result
  | .clz o => some (dspResult o.cond o.rd (if s.x o.rm = 0 then 32 else 31 - Nat.log2 (s.x o.rm).toNat) false s)
  | .qadd o =>
    let v := (s.x o.rm).toInt + (s.x o.rn).toInt
    some (dspResult o.cond o.rd (clamp v) (outOfRange v) s)
  | .qsub o =>
    let v := (s.x o.rm).toInt - (s.x o.rn).toInt
    some (dspResult o.cond o.rd (clamp v) (outOfRange v) s)
  | .qdadd o =>
    let d := 2 * (s.x o.rn).toInt
    let v := (s.x o.rm).toInt + clamp d
    some (dspResult o.cond o.rd (clamp v) (outOfRange d || outOfRange v) s)
  | .qdsub o =>
    let d := 2 * (s.x o.rn).toInt
    let v := (s.x o.rm).toInt - clamp d
    some (dspResult o.cond o.rd (clamp v) (outOfRange d || outOfRange v) s)
  | .smulXy o => some (dspResult o.cond o.rd (halfInt o.x (s.x o.rm) * halfInt o.y (s.x o.rs)) false s)
  | .smlaXy o =>
    let v := halfInt o.x (s.x o.rm) * halfInt o.y (s.x o.rs) + (s.x o.rn).toInt
    some (dspResult o.cond o.rd v (outOfRange v) s)
  | .smulwY o => some (dspResult o.cond o.rd ((s.x o.rm).toInt * halfInt o.y (s.x o.rs) / 2 ^ 16) false s)
  | .smlawY o =>
    let v := (s.x o.rm).toInt * halfInt o.y (s.x o.rs) / 2 ^ 16 + (s.x o.rn).toInt
    some (dspResult o.cond o.rd v (outOfRange v) s)
  | _ => none

/-- A 64-bit result (R343). -/
structure LongResult where
  cond  : BitVec 4
  rdHi  : BitVec 4
  rdLo  : BitVec 4
  value : Dword
  flags : Flags
  mask  : Word

/-- A flag-setting long multiply (R343). -/
def longResult (o : MullOps) (p : Dword) (s : State) : LongResult :=
  { cond := o.cond, rdHi := o.rdHi, rdLo := o.rdLo, value := p, flags := nzFlags o.s (p.getLsbD 63) (p == 0) s,
    mask := if o.s = 1 then nzcvMask else 0 }

/-- The long multiplies, from exact products added modulo 2^64 (R343 to R346, R365); SMLALxy on core A9. -/
def longOp (s : State) : Instr → Option LongResult
  | .umull o => some (longResult o (BitVec.ofNat 64 ((s.x o.rm).toNat * (s.x o.rs).toNat)) s)
  | .umlal o => some (longResult o (BitVec.ofNat 64 ((s.x o.rm).toNat * (s.x o.rs).toNat) + (s.x o.rdHi ++ s.x o.rdLo)) s)
  | .smull o => some (longResult o (BitVec.ofInt 64 ((s.x o.rm).toInt * (s.x o.rs).toInt)) s)
  | .smlal o => some (longResult o (BitVec.ofInt 64 ((s.x o.rm).toInt * (s.x o.rs).toInt) + (s.x o.rdHi ++ s.x o.rdLo)) s)
  | .smlalXy o =>
    if s.running = .a9 then
      some { cond := o.cond, rdHi := o.rdHi, rdLo := o.rdLo, flags := s.cur.flags, mask := 0,
             value := BitVec.ofInt 64 (halfInt o.x (s.x o.rm) * halfInt o.y (s.x o.rs)) + (s.x o.rdHi ++ s.x o.rdLo) }
    else none
  | _ => none

/-- The low half is written first, then the high half, which wins where both name one register (R343). -/
def LongResult.Completes (i : Instr) (r : LongResult) (s : State) : Prop :=
  let hi := r.value.extractLsb' 32 32
  let lo := r.value.extractLsb' 0 32
  (r.rdHi ≠ 15 → r.rdLo ≠ 15 → ∃ t, exec i s = .next t ∧ t.x r.rdHi = hi ∧ (r.rdLo ≠ r.rdHi → t.x r.rdLo = lo) ∧
    t.cur.flags = r.flags ∧ Frame [r.rdHi, r.rdLo] r.mask s t) ∧
  (r.rdHi = 15 → r.rdLo ≠ 15 → ∀ p0 p1, Fetches s.cur.t hi s p0 p1 → ∃ t, exec i s = .next t ∧
    JumpedTo s.cur.t hi p0 p1 t ∧ t.x r.rdLo = lo ∧ t.cur.flags = r.flags ∧ JumpFrame [r.rdLo] r.mask s t) ∧
  (r.rdHi ≠ 15 → r.rdLo = 15 → ∀ p0 p1, Fetches s.cur.t lo s p0 p1 → ∃ t, exec i s = .next t ∧
    JumpedTo s.cur.t lo p0 p1 t ∧ t.x r.rdHi = hi ∧ t.cur.flags = r.flags ∧ JumpFrame [r.rdHi] r.mask s t) ∧
  (r.rdHi = 15 → r.rdLo = 15 → ∀ p0 p1 q0 q1, Fetches s.cur.t lo s q0 q1 → Fetches s.cur.t hi s p0 p1 →
    ∃ t, exec i s = .next t ∧ JumpedTo s.cur.t hi p0 p1 t ∧ t.cur.flags = r.flags ∧ JumpFrame [] r.mask s t)

/-! Thumb (spec/48_thumb_a.md, 49_thumb_b.md): every instruction is unconditional (R183). -/

/-- A result with its flags. -/
def thumbResult (rd : BitVec 4) (r : Word × Flags) (s : State) : Result :=
  { cond := 14, rd := rd, value := r.1, flags := r.2, q := s.cur.q, mask := nzcvMask }

/-- A result that sets no flag. -/
def thumbPlain (rd : BitVec 4) (v : Word) (s : State) : Result :=
  { cond := 14, rd := rd, value := v, flags := s.cur.flags, q := s.cur.q, mask := 0 }

/-- A shifted or logical result, V unchanged (R400, R412). -/
def thumbLogical (r : Word) (carry : Bool) (s : State) : Word × Flags := (r, logicalFlags r carry s)

/-- Formats 1 to 4, the instructions that write a register (R401 to R427). -/
def thumbAluOp (s : State) : Instr → Option Result
  | .tLslImm o =>
    let r := shiftImm .lsl o.imm5 (s.x (low o.rs)) s.cur.c
    some (thumbResult (low o.rd) (thumbLogical r.value r.carry s) s)
  | .tLsrImm o =>
    let r := shiftImm .lsr o.imm5 (s.x (low o.rs)) s.cur.c
    some (thumbResult (low o.rd) (thumbLogical r.value r.carry s) s)
  | .tAsrImm o =>
    let r := shiftImm .asr o.imm5 (s.x (low o.rs)) s.cur.c
    some (thumbResult (low o.rd) (thumbLogical r.value r.carry s) s)
  | .tAddReg o => some (thumbResult (low o.rd) (sumResult (s.x (low o.rs)) (s.x (low o.rn)) false) s)
  | .tSubReg o => some (thumbResult (low o.rd) (diffResult (s.x (low o.rs)) (s.x (low o.rn)) true) s)
  | .tAddImm3 o => some (thumbResult (low o.rd) (sumResult (s.x (low o.rs)) (o.imm3.setWidth 32) false) s)
  | .tSubImm3 o => some (thumbResult (low o.rd) (diffResult (s.x (low o.rs)) (o.imm3.setWidth 32) true) s)
  | .tMovImm8 o => some (thumbResult (low o.rd) (thumbLogical (o.imm8.setWidth 32) s.cur.c s) s)
  | .tAddImm8 o => some (thumbResult (low o.rd) (sumResult (s.x (low o.rd)) (o.imm8.setWidth 32) false) s)
  | .tSubImm8 o => some (thumbResult (low o.rd) (diffResult (s.x (low o.rd)) (o.imm8.setWidth 32) true) s)
  | .tAnd o => some (thumbResult (low o.rd) (thumbLogical (s.x (low o.rd) &&& s.x (low o.rs)) s.cur.c s) s)
  | .tEor o => some (thumbResult (low o.rd) (thumbLogical (s.x (low o.rd) ^^^ s.x (low o.rs)) s.cur.c s) s)
  | .tOrr o => some (thumbResult (low o.rd) (thumbLogical (s.x (low o.rd) ||| s.x (low o.rs)) s.cur.c s) s)
  | .tBic o => some (thumbResult (low o.rd) (thumbLogical (s.x (low o.rd) &&& ~~~s.x (low o.rs)) s.cur.c s) s)
  | .tMvn o => some (thumbResult (low o.rd) (thumbLogical (~~~s.x (low o.rs)) s.cur.c s) s)
  | .tMul o =>
    some (thumbResult (low o.rd) (thumbLogical (BitVec.ofNat 32 ((s.x (low o.rd)).toNat * (s.x (low o.rs)).toNat)) s.cur.c s) s)
  | .tLslReg o =>
    let r := shiftReg .lsl ((s.x (low o.rs)).extractLsb' 0 8) (s.x (low o.rd)) s.cur.c
    some (thumbResult (low o.rd) (thumbLogical r.value r.carry s) s)
  | .tLsrReg o =>
    let r := shiftReg .lsr ((s.x (low o.rs)).extractLsb' 0 8) (s.x (low o.rd)) s.cur.c
    some (thumbResult (low o.rd) (thumbLogical r.value r.carry s) s)
  | .tAsrReg o =>
    let r := shiftReg .asr ((s.x (low o.rs)).extractLsb' 0 8) (s.x (low o.rd)) s.cur.c
    some (thumbResult (low o.rd) (thumbLogical r.value r.carry s) s)
  | .tRorReg o =>
    let r := shiftReg .ror ((s.x (low o.rs)).extractLsb' 0 8) (s.x (low o.rd)) s.cur.c
    some (thumbResult (low o.rd) (thumbLogical r.value r.carry s) s)
  | .tAdc o => some (thumbResult (low o.rd) (sumResult (s.x (low o.rd)) (s.x (low o.rs)) s.cur.c) s)
  | .tSbc o => some (thumbResult (low o.rd) (diffResult (s.x (low o.rd)) (s.x (low o.rs)) s.cur.c) s)
  | .tNeg o => some (thumbResult (low o.rd) (diffResult 0 (s.x (low o.rs)) true) s)
  | _ => none

/-- The Thumb instructions that write the flags alone (R409, R421 to R423, R431). -/
def thumbCompareOp (s : State) : Instr → Option Flags
  | .tCmpImm8 o => some (diffFlags (s.x (low o.rd)) (o.imm8.setWidth 32) true)
  | .tTst o => some (thumbLogical (s.x (low o.rd) &&& s.x (low o.rs)) s.cur.c s).2
  | .tCmpReg o => some (diffFlags (s.x (low o.rd)) (s.x (low o.rs)) true)
  | .tCmn o => some (sumFlags (s.x (low o.rd)) (s.x (low o.rs)) false)
  | .tCmpHi o => some (diffFlags (s.x (hiReg o.h1 o.rdLow)) (s.x (hiReg o.h2 o.rsLow)) true)
  | _ => none

/-- The Thumb instructions that write a register and no flag (R430, R432, R458 to R461, R480). -/
def thumbPlainOp (s : State) : Instr → Option Result
  | .tAddHi o => some (thumbPlain (hiReg o.h1 o.rdLow) (s.x (hiReg o.h1 o.rdLow) + s.x (hiReg o.h2 o.rsLow)) s)
  | .tMovHi o => some (thumbPlain (hiReg o.h1 o.rdLow) (s.x (hiReg o.h2 o.rsLow)) s)
  | .tAddPc o => some (thumbPlain (low o.rd) ((s.x 15 &&& 0xFFFFFFFD) + BitVec.ofNat 32 (4 * o.imm8.toNat)) s)
  | .tAddSp o => some (thumbPlain (low o.rd) (s.x 13 + BitVec.ofNat 32 (4 * o.imm8.toNat)) s)
  | .tIncSp o => some (thumbPlain 13 (s.x 13 + BitVec.ofNat 32 (4 * o.imm7.toNat)) s)
  | .tDecSp o => some (thumbPlain 13 (s.x 13 - BitVec.ofNat 32 (4 * o.imm7.toNat)) s)
  | .tBlPrefix o => some (thumbPlain 14 (s.x 15 + BitVec.ofInt 32 (o.offset.toInt * 4096)) s)
  | _ => none

/-! Loads and stores (spec/42_load_store.md, 48_thumb_a.md, 49_thumb_b.md). -/

/-- A single load: the address with its write-back, the access width, the value from what memory holds, and whether a load of
R15 is `load_pc` (R251 to R265). -/
structure LoadView where
  cond     : BitVec 4
  rd       : BitVec 4
  rn       : BitVec 4
  a        : Address
  width    : Width
  value    : Word → Word
  exchange : Bool

/-- LDR: the aligned word, rotated by the low address bits (R252). -/
def wordLoad (cond rd rn : BitVec 4) (a : Address) : LoadView :=
  { cond := cond, rd := rd, rn := rn, a := a, width := .w32, exchange := true,
    value := fun d => d.rotateRight (8 * (a.addr.toNat % 4)) }

/-- LDRB: zero-extended (R255). -/
def byteLoad (cond rd rn : BitVec 4) (a : Address) : LoadView :=
  { cond := cond, rd := rd, rn := rn, a := a, width := .w8, exchange := false, value := id }

/-- LDRH: the aligned half-word, rotated at an odd address (R262). -/
def halfLoad (cond rd rn : BitVec 4) (a : Address) : LoadView :=
  { cond := cond, rd := rd, rn := rn, a := a, width := .w16, exchange := false,
    value := fun d => d.rotateRight (8 * (a.addr.toNat % 2)) }

/-- LDRSB: sign-extended (R265). -/
def signedByteLoad (cond rd rn : BitVec 4) (a : Address) : LoadView :=
  { cond := cond, rd := rd, rn := rn, a := a, width := .w8, exchange := false,
    value := fun d => BitVec.ofInt 32 (d.extractLsb' 0 8).toInt }

/-- LDRSH: the half-word, or at an odd address the byte there, sign-extended (R264). -/
def signedHalfLoad (cond rd rn : BitVec 4) (a : Address) : LoadView :=
  if a.addr.toNat % 2 = 0 then
    { cond := cond, rd := rd, rn := rn, a := a, width := .w16, exchange := false,
      value := fun d => BitVec.ofInt 32 (d.extractLsb' 0 16).toInt }
  else signedByteLoad cond rd rn a

/-- A Thumb address: no write-back. -/
def plainAddress (addr : Word) : Address := { addr := addr, idx := addr, wb := false }

/-- The twenty-four single loads. -/
def loadView (k : CoreState) : Instr → Option LoadView
  | .ldrImm o => some (wordLoad o.cond o.rd o.rn (addrSdtImm o k))
  | .ldrReg o => some (wordLoad o.cond o.rd o.rn (addrSdtReg o k))
  | .ldrtImm o => some (wordLoad o.cond o.rd o.rn (addrSdtTImm o k))
  | .ldrtReg o => some (wordLoad o.cond o.rd o.rn (addrSdtTReg o k))
  | .ldrbImm o => some (byteLoad o.cond o.rd o.rn (addrSdtImm o k))
  | .ldrbReg o => some (byteLoad o.cond o.rd o.rn (addrSdtReg o k))
  | .ldrbtImm o => some (byteLoad o.cond o.rd o.rn (addrSdtTImm o k))
  | .ldrbtReg o => some (byteLoad o.cond o.rd o.rn (addrSdtTReg o k))
  | .ldrhImm o => some (halfLoad o.cond o.rd o.rn (addrHdtImm o k))
  | .ldrhReg o => some (halfLoad o.cond o.rd o.rn (addrHdtReg o k))
  | .ldrsbImm o => some (signedByteLoad o.cond o.rd o.rn (addrHdtImm o k))
  | .ldrsbReg o => some (signedByteLoad o.cond o.rd o.rn (addrHdtReg o k))
  | .ldrshImm o => some (signedHalfLoad o.cond o.rd o.rn (addrHdtImm o k))
  | .ldrshReg o => some (signedHalfLoad o.cond o.rd o.rn (addrHdtReg o k))
  | .tLdrPc o =>
    some { cond := 14, rd := low o.rd, rn := 0, width := .w32, value := id, exchange := true,
           a := plainAddress ((k.reg 15 &&& 0xFFFFFFFD) + BitVec.ofNat 32 (4 * o.imm8.toNat)) }
  | .tLdrReg o => some (wordLoad 14 (low o.rd) 0 (plainAddress (k.reg (low o.rb) + k.reg (low o.ro))))
  | .tLdrbReg o => some (byteLoad 14 (low o.rd) 0 (plainAddress (k.reg (low o.rb) + k.reg (low o.ro))))
  | .tLdrhReg o => some (halfLoad 14 (low o.rd) 0 (plainAddress (k.reg (low o.rb) + k.reg (low o.ro))))
  | .tLdsbReg o => some (signedByteLoad 14 (low o.rd) 0 (plainAddress (k.reg (low o.rb) + k.reg (low o.ro))))
  | .tLdshReg o => some (signedHalfLoad 14 (low o.rd) 0 (plainAddress (k.reg (low o.rb) + k.reg (low o.ro))))
  | .tLdrImm o => some (wordLoad 14 (low o.rd) 0 (plainAddress (k.reg (low o.rb) + BitVec.ofNat 32 (4 * o.imm5.toNat))))
  | .tLdrbImm o => some (byteLoad 14 (low o.rd) 0 (plainAddress (k.reg (low o.rb) + BitVec.ofNat 32 (o.imm5.toNat))))
  | .tLdrhImm o => some (halfLoad 14 (low o.rd) 0 (plainAddress (k.reg (low o.rb) + BitVec.ofNat 32 (2 * o.imm5.toNat))))
  | .tLdrSp o => some (wordLoad 14 (low o.rd) 0 (plainAddress (k.reg 13 + BitVec.ofNat 32 (4 * o.imm8.toNat))))
  | _ => none

/-- The registers a transfer's write-back changes. -/
def backRegs (rn : BitVec 4) (a : Address) : List (BitVec 4) := if a.wb then [rn] else []

/-- The base written back, where the form asks and the base is not R15 (R251). -/
def State.wroteBack (s : State) (rn : BitVec 4) (a : Address) : State := if a.wb then s.setX rn a.idx else s

/-- A single store (R251, R254, R256, R263). -/
structure StoreView where
  cond  : BitVec 4
  rn    : BitVec 4
  a     : Address
  width : Width
  value : Word

/-- The value a store stores: a register, or the instruction's address + 12 for R15, which is `x[15] + 4` in ARM mode (R254,
R176). -/
def storedValue (rd : BitVec 4) (s : State) : Word := if rd = 15 then (if s.cur.t then s.x 15 + 2 else s.x 15 + 4) else s.x rd

/-- The seventeen single stores. -/
def storeView (s : State) : Instr → Option StoreView
  | .strImm o => some { cond := o.cond, rn := o.rn, a := addrSdtImm o s.cur, width := .w32, value := storedValue o.rd s }
  | .strReg o => some { cond := o.cond, rn := o.rn, a := addrSdtReg o s.cur, width := .w32, value := storedValue o.rd s }
  | .strtImm o => some { cond := o.cond, rn := o.rn, a := addrSdtTImm o s.cur, width := .w32, value := storedValue o.rd s }
  | .strtReg o => some { cond := o.cond, rn := o.rn, a := addrSdtTReg o s.cur, width := .w32, value := storedValue o.rd s }
  | .strbImm o => some { cond := o.cond, rn := o.rn, a := addrSdtImm o s.cur, width := .w8, value := storedValue o.rd s }
  | .strbReg o => some { cond := o.cond, rn := o.rn, a := addrSdtReg o s.cur, width := .w8, value := storedValue o.rd s }
  | .strbtImm o => some { cond := o.cond, rn := o.rn, a := addrSdtTImm o s.cur, width := .w8, value := storedValue o.rd s }
  | .strbtReg o => some { cond := o.cond, rn := o.rn, a := addrSdtTReg o s.cur, width := .w8, value := storedValue o.rd s }
  | .strhImm o => some { cond := o.cond, rn := o.rn, a := addrHdtImm o s.cur, width := .w16, value := storedValue o.rd s }
  | .strhReg o => some { cond := o.cond, rn := o.rn, a := addrHdtReg o s.cur, width := .w16, value := storedValue o.rd s }
  | .tStrReg o =>
    some { cond := 14, rn := 0, a := plainAddress (s.x (low o.rb) + s.x (low o.ro)), width := .w32, value := s.x (low o.rd) }
  | .tStrbReg o =>
    some { cond := 14, rn := 0, a := plainAddress (s.x (low o.rb) + s.x (low o.ro)), width := .w8, value := s.x (low o.rd) }
  | .tStrhReg o =>
    some { cond := 14, rn := 0, a := plainAddress (s.x (low o.rb) + s.x (low o.ro)), width := .w16, value := s.x (low o.rd) }
  | .tStrImm o =>
    some { cond := 14, rn := 0, a := plainAddress (s.x (low o.rb) + BitVec.ofNat 32 (4 * o.imm5.toNat)), width := .w32,
           value := s.x (low o.rd) }
  | .tStrbImm o =>
    some { cond := 14, rn := 0, a := plainAddress (s.x (low o.rb) + BitVec.ofNat 32 (o.imm5.toNat)), width := .w8,
           value := s.x (low o.rd) }
  | .tStrhImm o =>
    some { cond := 14, rn := 0, a := plainAddress (s.x (low o.rb) + BitVec.ofNat 32 (2 * o.imm5.toNat)), width := .w16,
           value := s.x (low o.rd) }
  | .tStrSp o =>
    some { cond := 14, rn := 0, a := plainAddress (s.x 13 + BitVec.ofNat 32 (4 * o.imm8.toNat)), width := .w32,
           value := s.x (low o.rd) }
  | _ => none

/-- LDRD and STRD in their two offset forms (R266): condition, `Rd`, `Rn`, address; `true` for the load. -/
def doubleView (k : CoreState) : Instr → Option (Bool × BitVec 4 × BitVec 4 × BitVec 4 × Address)
  | .ldrdImm o => some (true, o.cond, o.rd, o.rn, addrHdtImm o k)
  | .ldrdReg o => some (true, o.cond, o.rd, o.rn, addrHdtReg o k)
  | .strdImm o => some (false, o.cond, o.rd, o.rn, addrHdtImm o k)
  | .strdReg o => some (false, o.cond, o.rd, o.rn, addrHdtReg o k)
  | _ => none

/-- SWP and SWPB: operands, width, and the value from what memory holds (R300, R301). -/
def swapView (s : State) : Instr → Option (SwpOps × Width × (Word → Word))
  | .swp o => some (o, .w32, fun d => d.rotateRight (8 * ((s.x o.rn).toNat % 4)))
  | .swpb o => some (o, .w8, id)
  | _ => none

/-! Block transfers (spec/43_block_swap.md). -/

/-- Consecutive words read from plain memory: word `k` of `ws` stands at `a + 4k`, aligned down (R291, R292). -/
def PlainWords (a : Word) (ws : List Word) (s : State) : Prop :=
  ∀ k (h : k < ws.length), plainRead s.running (a + BitVec.ofNat 32 (4 * k)) .w32 s = some ws[k]

/-- The write-back of LDM happens (R295): asked for, and the base outside the list; or, on core A9, the base its only register
or below another of its registers. -/
def ldmWritesBack (c : CoreId) (w : BitVec 1) (rn : BitVec 4) (list : BitVec 16) : Bool :=
  w == 1 && (!list.getLsbD rn.toNat || (c == .a9 && (list == 1#16 <<< rn.toNat || list >>> (rn.toNat + 1) != 0)))

/-- The base written back, if it is. -/
def baseRegs (written : Bool) (rn : BitVec 4) : List (BitVec 4) := if written then [rn] else []

/-- The state after a load of `vs` (pairs of register and value): the base holds the written-back value `back` if it was
written, and every loaded register but R15 its word; a written-back base wins over its own loaded word (R292, R295). -/
def LoadedList (written : Bool) (rn : BitVec 4) (back : Word) (vs : List (BitVec 4 × Word)) (t : State) : Prop :=
  (written = true → t.x rn = back) ∧ ∀ p ∈ vs, p.1 ≠ 15 → (p.1 = rn → written = false) → t.x p.1 = p.2

/-- What STM stores for register `i` (R293, R295, R296). -/
def stmWord (o : BdtOps) (back : Word) (s : State) (i : BitVec 4) : Word :=
  if i = 15 then storedValue 15 s
  else if i = o.rn ∧ o.w = 1 ∧ s.running = .a7 ∧ o.list.toNat % 2 ^ i.toNat ≠ 0 then back
  else if o.s = 1 then s.cur.userReg i else s.x i

/-- A block transfer with an empty list (R297): load or store, condition, P, U, W, S, base. -/
structure EmptyView where
  load : Bool
  cond : BitVec 4
  p    : BitVec 1
  u    : BitVec 1
  w    : BitVec 1
  s    : BitVec 1
  rn   : BitVec 4

/-- The forms whose list is empty (R297, R462 to R465). -/
def emptyView : Instr → Option EmptyView
  | .ldm o => if o.list = 0 then some { load := true, cond := o.cond, p := o.p, u := o.u, w := o.w, s := o.s, rn := o.rn } else none
  | .stm o => if o.list = 0 then some { load := false, cond := o.cond, p := o.p, u := o.u, w := o.w, s := o.s, rn := o.rn } else none
  | .tPush o => if o.rlist = 0 ∧ o.r = 0 then some { load := false, cond := 14, p := 1, u := 0, w := 1, s := 0, rn := 13 } else none
  | .tPop o => if o.rlist = 0 ∧ o.r = 0 then some { load := true, cond := 14, p := 0, u := 1, w := 1, s := 0, rn := 13 } else none
  | .tStmia o => if o.rlist = 0 then some { load := false, cond := 14, p := 0, u := 1, w := 1, s := 0, rn := low o.rb } else none
  | .tLdmia o => if o.rlist = 0 then some { load := true, cond := 14, p := 0, u := 1, w := 1, s := 0, rn := low o.rb } else none
  | _ => none

/-- What PUSH and POP move (R462, R463): the listed low registers, then LR or PC. -/
def stackRegs (o : TPushPopOps) (extra : BitVec 4) : List (BitVec 4) :=
  lowRegs o.rlist ++ (if o.r = 1 then [extra] else [])

/-- The instruction set and the target of `load_pc(v)` (R253). -/
def loadPcThumb (v : Word) (s : State) : Bool := if s.running = .a9 then v.getLsbD 0 else s.cur.t
def loadPcTarget (v : Word) (s : State) : Word := if s.running = .a9 then v &&& 0xFFFFFFFE else v

/-! Branches (spec/44_branch.md, 48_thumb_a.md, 49_thumb_b.md). -/

/-- A jump: its condition, the instruction set afterwards, the target, the link value, the status bits it may change. -/
structure JumpView where
  cond   : BitVec 4
  thumb  : Bool
  target : Word
  link   : Option Word
  mask   : Word

/-- B, BL, BX, BLX in ARM mode (R310 to R314); BLX on core A9 only. -/
def armJump (s : State) : Instr → Option JumpView
  | .b o => some { cond := o.cond, thumb := s.cur.t, target := s.x 15 + BitVec.ofInt 32 (o.imm24.toInt * 4), link := none,
                   mask := 0 }
  | .bl o => some { cond := o.cond, thumb := s.cur.t, target := s.x 15 + BitVec.ofInt 32 (o.imm24.toInt * 4),
                    link := some (s.x 15 - 4), mask := 0 }
  | .bx o => some { cond := o.cond, thumb := (s.x o.rm).getLsbD 0, target := s.x o.rm &&& 0xFFFFFFFE, link := none,
                    mask := tMask }
  | .blxReg o =>
    if s.running = .a9 then
      some { cond := o.cond, thumb := (s.x o.rm).getLsbD 0, target := s.x o.rm &&& 0xFFFFFFFE, link := some (s.x 15 - 4),
             mask := tMask }
    else none
  | .blxLabel o =>
    if s.running = .a9 then
      some { cond := 14, thumb := true, target := s.x 15 + BitVec.ofInt 32 (o.imm24.toInt * 4 + 2 * o.h.toNat),
             link := some (s.x 15 - 4), mask := tMask }
    else none
  | _ => none

/-- The Thumb branches (R433, R434, R470, R474, R481, R482); BLX on core A9 only. -/
def thumbJump (s : State) : Instr → Option JumpView
  | .tBx o => some { cond := 14, thumb := (s.x (hiReg o.h2 o.rsLow)).getLsbD 0,
                     target := s.x (hiReg o.h2 o.rsLow) &&& 0xFFFFFFFE, link := none, mask := tMask }
  | .tBxH1 o => some { cond := 14, thumb := (s.x (hiReg o.h2 o.rsLow)).getLsbD 0,
                       target := s.x (hiReg o.h2 o.rsLow) &&& 0xFFFFFFFE, link := none, mask := tMask }
  | .tBlxReg o =>
    if s.running = .a9 then
      some { cond := 14, thumb := (s.x (hiReg o.h2 o.rsLow)).getLsbD 0, target := s.x (hiReg o.h2 o.rsLow) &&& 0xFFFFFFFE,
             link := some ((s.x 15 - 2) ||| 1), mask := tMask }
    else none
  | .tBcond o => some { cond := o.cond, thumb := s.cur.t, target := s.x 15 + BitVec.ofInt 32 (o.soffset.toInt * 2),
                        link := none, mask := 0 }
  | .tB o => some { cond := 14, thumb := s.cur.t, target := s.x 15 + BitVec.ofInt 32 (o.offset.toInt * 2), link := none,
                    mask := 0 }
  | .tBlSuffix o => some { cond := 14, thumb := s.cur.t, target := s.x 14 + BitVec.ofNat 32 (2 * o.offset.toNat),
                           link := some ((s.x 15 - 2) ||| 1), mask := 0 }
  | .tBlxSuffix o =>
    if s.running = .a9 then
      some { cond := 14, thumb := false, target := (s.x 14 + BitVec.ofNat 32 (2 * o.offset.toNat)) &&& 0xFFFFFFFC,
             link := some ((s.x 15 - 2) ||| 1), mask := tMask }
    else none
  | _ => none

/-- The jump happened: the pipeline refilled, the link register written, nothing else changed. -/
def JumpView.Completes (i : Instr) (v : JumpView) (s : State) : Prop :=
  ∀ p0 p1, Fetches v.thumb v.target s p0 p1 → ∃ t, exec i s = .next t ∧ JumpedTo v.thumb v.target p0 p1 t ∧
    (∀ l, v.link = some l → t.x 14 = l) ∧ JumpFrame (if v.link.isSome then [14] else []) v.mask s t

/-! Conditions, unknown instructions, and what may change the mode. -/

/-- The condition field of an ARM instruction that has one (R182). PLD and BLX label, whose field is 1111, and the Thumb
instructions have none (R136, R183). -/
def armCond : Instr → Option (BitVec 4)
  | .andImm h _ => some h.cond
  | .andShiftImm h _ => some h.cond
  | .andShiftReg h _ => some h.cond
  | .eorImm h _ => some h.cond
  | .eorShiftImm h _ => some h.cond
  | .eorShiftReg h _ => some h.cond
  | .subImm h _ => some h.cond
  | .subShiftImm h _ => some h.cond
  | .subShiftReg h _ => some h.cond
  | .rsbImm h _ => some h.cond
  | .rsbShiftImm h _ => some h.cond
  | .rsbShiftReg h _ => some h.cond
  | .addImm h _ => some h.cond
  | .addShiftImm h _ => some h.cond
  | .addShiftReg h _ => some h.cond
  | .adcImm h _ => some h.cond
  | .adcShiftImm h _ => some h.cond
  | .adcShiftReg h _ => some h.cond
  | .sbcImm h _ => some h.cond
  | .sbcShiftImm h _ => some h.cond
  | .sbcShiftReg h _ => some h.cond
  | .rscImm h _ => some h.cond
  | .rscShiftImm h _ => some h.cond
  | .rscShiftReg h _ => some h.cond
  | .tstImm h _ => some h.cond
  | .tstShiftImm h _ => some h.cond
  | .tstShiftReg h _ => some h.cond
  | .teqImm h _ => some h.cond
  | .teqShiftImm h _ => some h.cond
  | .teqShiftReg h _ => some h.cond
  | .cmpImm h _ => some h.cond
  | .cmpShiftImm h _ => some h.cond
  | .cmpShiftReg h _ => some h.cond
  | .cmnImm h _ => some h.cond
  | .cmnShiftImm h _ => some h.cond
  | .cmnShiftReg h _ => some h.cond
  | .orrImm h _ => some h.cond
  | .orrShiftImm h _ => some h.cond
  | .orrShiftReg h _ => some h.cond
  | .movImm h _ => some h.cond
  | .movShiftImm h _ => some h.cond
  | .movShiftReg h _ => some h.cond
  | .bicImm h _ => some h.cond
  | .bicShiftImm h _ => some h.cond
  | .bicShiftReg h _ => some h.cond
  | .mvnImm h _ => some h.cond
  | .mvnShiftImm h _ => some h.cond
  | .mvnShiftReg h _ => some h.cond
  | .mul o => some o.cond
  | .mla o => some o.cond
  | .umull o => some o.cond
  | .umlal o => some o.cond
  | .smull o => some o.cond
  | .smlal o => some o.cond
  | .swp o => some o.cond
  | .swpb o => some o.cond
  | .strhReg o => some o.cond
  | .strhImm o => some o.cond
  | .ldrhReg o => some o.cond
  | .ldrhImm o => some o.cond
  | .ldrsbReg o => some o.cond
  | .ldrsbImm o => some o.cond
  | .ldrshReg o => some o.cond
  | .ldrshImm o => some o.cond
  | .ldrdReg o => some o.cond
  | .ldrdImm o => some o.cond
  | .strdReg o => some o.cond
  | .strdImm o => some o.cond
  | .unkDoubleA7 w => some (w.extractLsb' 28 4)
  | .mrs o => some o.cond
  | .msrCpsrReg o => some o.cond
  | .msrSpsrReg o => some o.cond
  | .msrCpsrImm o => some o.cond
  | .msrSpsrImm o => some o.cond
  | .bx o => some o.cond
  | .blxReg o => some o.cond
  | .bkpt o => some o.cond
  | .clz o => some o.cond
  | .qadd o => some o.cond
  | .qsub o => some o.cond
  | .qdadd o => some o.cond
  | .qdsub o => some o.cond
  | .smlaXy o => some o.cond
  | .smlawY o => some o.cond
  | .smulwY o => some o.cond
  | .smlalXy o => some o.cond
  | .smulXy o => some o.cond
  | .strImm o => some o.cond
  | .strReg o => some o.cond
  | .ldrImm o => some o.cond
  | .ldrReg o => some o.cond
  | .strbImm o => some o.cond
  | .strbReg o => some o.cond
  | .ldrbImm o => some o.cond
  | .ldrbReg o => some o.cond
  | .strtImm o => some o.cond
  | .strtReg o => some o.cond
  | .ldrtImm o => some o.cond
  | .ldrtReg o => some o.cond
  | .strbtImm o => some o.cond
  | .strbtReg o => some o.cond
  | .ldrbtImm o => some o.cond
  | .ldrbtReg o => some o.cond
  | .stm o => some o.cond
  | .ldm o => some o.cond
  | .b o => some o.cond
  | .bl o => some o.cond
  | .blxLabel _ => none
  | .pld _ => none
  | .mrc o => some o.cond
  | .mcr o => some o.cond
  | .coprocOther o => some o.cond
  | .swi o => some o.cond
  | .unkMiscA w => some (w.extractLsb' 28 4)
  | .unkMiscB w => some (w.extractLsb' 28 4)
  | .unkImm w => some (w.extractLsb' 28 4)
  | .unk1001 w => some (w.extractLsb' 28 4)
  | .unkMedia w => some (w.extractLsb' 28 4)
  | .unkLdcStc w => some (w.extractLsb' 28 4)
  | .unkCdp w => some (w.extractLsb' 28 4)
  | .tLslImm _ => none
  | .tLsrImm _ => none
  | .tAsrImm _ => none
  | .tAddReg _ => none
  | .tSubReg _ => none
  | .tAddImm3 _ => none
  | .tSubImm3 _ => none
  | .tMovImm8 _ => none
  | .tCmpImm8 _ => none
  | .tAddImm8 _ => none
  | .tSubImm8 _ => none
  | .tAnd _ => none
  | .tEor _ => none
  | .tLslReg _ => none
  | .tLsrReg _ => none
  | .tAsrReg _ => none
  | .tAdc _ => none
  | .tSbc _ => none
  | .tRorReg _ => none
  | .tTst _ => none
  | .tNeg _ => none
  | .tCmpReg _ => none
  | .tCmn _ => none
  | .tOrr _ => none
  | .tMul _ => none
  | .tBic _ => none
  | .tMvn _ => none
  | .tAddHi _ => none
  | .tCmpHi _ => none
  | .tMovHi _ => none
  | .tBx _ => none
  | .tBlxReg _ => none
  | .tBxH1 _ => none
  | .tLdrPc _ => none
  | .tStrReg _ => none
  | .tStrbReg _ => none
  | .tLdrReg _ => none
  | .tLdrbReg _ => none
  | .tStrhReg _ => none
  | .tLdsbReg _ => none
  | .tLdrhReg _ => none
  | .tLdshReg _ => none
  | .tStrImm _ => none
  | .tLdrImm _ => none
  | .tStrbImm _ => none
  | .tLdrbImm _ => none
  | .tStrhImm _ => none
  | .tLdrhImm _ => none
  | .tStrSp _ => none
  | .tLdrSp _ => none
  | .tAddPc _ => none
  | .tAddSp _ => none
  | .tIncSp _ => none
  | .tDecSp _ => none
  | .tPush _ => none
  | .tPop _ => none
  | .tBkpt _ => none
  | .tUnk1011 _ => none
  | .tStmia _ => none
  | .tLdmia _ => none
  | .tBcond _ => none
  | .tUnkDe _ => none
  | .tSwi _ => none
  | .tB _ => none
  | .tBlPrefix _ => none
  | .tBlSuffix _ => none
  | .tBlxSuffix _ => none
  | .tUnk11101 _ => none

/-- The instructions that are unknown on both cores (R134, R150, R384, R391), on core A7 (R390), or with an odd `Rd` (R266). -/
def isUnknown (c : CoreId) : Instr → Bool
  | .bkpt _ => true
  | .unkMiscA _ => true
  | .unkMiscB _ => true
  | .unkImm _ => true
  | .unk1001 _ => true
  | .unkMedia _ => true
  | .unkLdcStc _ => true
  | .unkCdp _ => true
  | .unkDoubleA7 _ => true
  | .coprocOther _ => true
  | .tBkpt _ => true
  | .tUnk1011 _ => true
  | .tUnkDe _ => true
  | .tUnk11101 _ => true
  | .blxReg _ => c == .a7
  | .clz _ => c == .a7
  | .qadd _ => c == .a7
  | .qsub _ => c == .a7
  | .qdadd _ => c == .a7
  | .qdsub _ => c == .a7
  | .smlaXy _ => c == .a7
  | .smlawY _ => c == .a7
  | .smulwY _ => c == .a7
  | .smlalXy _ => c == .a7
  | .smulXy _ => c == .a7
  | .mrc _ => c == .a7
  | .mcr _ => c == .a7
  | .tBlxReg _ => c == .a7
  | .tBlxSuffix _ => c == .a7
  | .ldrdImm o => c == .a7 || o.rd.getLsbD 0
  | .ldrdReg o => c == .a7 || o.rd.getLsbD 0
  | .strdImm o => c == .a7 || o.rd.getLsbD 0
  | .strdReg o => c == .a7 || o.rd.getLsbD 0
  | _ => false

/-- The instructions that may change the mode, the interrupt bits or a saved status (R330): MSR, SWI, and the forms of the
exception return. -/
def mayChangeMode : Instr → Bool
  | .swi _ | .tSwi _ | .msrCpsrReg _ | .msrCpsrImm _ | .msrSpsrReg _ | .msrSpsrImm _ => true
  | .ldm o => o.s == 1 && (o.list.getLsbD 15 || o.list == 0)
  | .andImm h _ | .eorImm h _ | .subImm h _ | .rsbImm h _ | .addImm h _ | .adcImm h _
  | .sbcImm h _ | .rscImm h _ | .orrImm h _ | .movImm h _ | .bicImm h _ | .mvnImm h _ =>
    h.rd == 15 && h.s == 1
  | .andShiftImm h _ | .eorShiftImm h _ | .subShiftImm h _ | .rsbShiftImm h _ | .addShiftImm h _ | .adcShiftImm h _
  | .sbcShiftImm h _ | .rscShiftImm h _ | .orrShiftImm h _ | .movShiftImm h _ | .bicShiftImm h _ | .mvnShiftImm h _ =>
    h.rd == 15 && h.s == 1
  | .andShiftReg h _ | .eorShiftReg h _ | .subShiftReg h _ | .rsbShiftReg h _ | .addShiftReg h _ | .adcShiftReg h _
  | .sbcShiftReg h _ | .rscShiftReg h _ | .orrShiftReg h _ | .movShiftReg h _ | .bicShiftReg h _ | .mvnShiftReg h _ =>
    h.rd == 15 && h.s == 1
  | _ => false

/-- A page table that agrees with `Resolve` in both directions (R78): what every rebuild establishes (R92). -/
def TablesFresh (c : CoreId) (s : State) : Prop := ∀ a d, locate c a d s = resolve s.par s.ctl c a d

end Sys2Proof.Machine
end

