-- ==== Sys2Proof/WellFormed.lean ====
section
/-! DEFINITION. Well-formed instructions (spec/30_encoding.md R131 to R136, R150): those a core's decoder can answer with.
An instruction of one core only is not well formed on the other; a word kept whole by a row of unknown instructions matches
that row and no more specific one. -/

namespace Sys2Proof

/-- The word lies in the `MRS` .. `SMULXY` space: bits 27:23 = 00010, bit 20 = 0 (R134). -/
def inMiscSpace (w : Word) : Bool := w.extractLsb' 23 5 == 2 && w.extractLsb' 20 1 == 0

/-- `UNK_MISC_A` and no more specific row (R134). -/
def isMiscA (c : CoreId) (w : Word) : Bool :=
  inMiscSpace w && w.extractLsb' 4 1 == 0 && w.extractLsb' 4 4 != 0 && !(c == .a9 && w.extractLsb' 7 1 == 1)

/-- `UNK_MISC_B` and no more specific row (R134); BKPT is a row of its own. -/
def isMiscB (c : CoreId) (w : Word) : Bool :=
  inMiscSpace w && w.extractLsb' 4 1 == 1 && w.extractLsb' 7 1 == 0 &&
  !(w.extractLsb' 21 2 == 1 && (w.extractLsb' 4 4 == 1 || w.extractLsb' 4 4 == 7)) &&
  !(c == .a9 && ((w.extractLsb' 21 2 == 1 && w.extractLsb' 4 4 == 3) ||
    (w.extractLsb' 21 2 == 3 && w.extractLsb' 4 4 == 1) || w.extractLsb' 4 4 == 5))

/-- `UNK_1001` and no more specific row (R134). -/
def is1001 (w : Word) : Bool :=
  w.extractLsb' 25 3 == 0 && w.extractLsb' 4 4 == 9 && w.extractLsb' 22 6 != 0 && w.extractLsb' 23 5 != 1 &&
  !(w.extractLsb' 23 5 == 2 && w.extractLsb' 20 2 == 0)

/-- The word is PLD on core A9 (R136). -/
def isPld (c : CoreId) (w : Word) : Bool :=
  c == .a9 && w.extractLsb' 28 4 == 15 && w.extractLsb' 26 2 == 1 && w.extractLsb' 24 1 == 1 &&
  w.extractLsb' 20 3 == 5

/-- P = 0 with W = 1 in a single data transfer names the T form (R257). -/
def notT (p w : BitVec 1) : Bool := !(p == 0 && w == 1)

/-- The fields of an LDRB whose word is PLD on core A9 (R136). -/
def notPldFields (c : CoreId) (cond : BitVec 4) (p w : BitVec 1) : Bool :=
  !(c == .a9 && cond == 15 && p == 1 && w == 0)

/-- The fields of a B or BL whose word is BLX label on core A9 (R136). -/
def notBlxFields (c : CoreId) (cond : BitVec 4) : Bool := !(c == .a9 && cond == 15)

/-- Well-formed on core `c`. -/
def wellFormed (c : CoreId) : Instr → Bool
  | .andImm _ _ => true
  | .andShiftImm _ _ => true
  | .andShiftReg _ _ => true
  | .eorImm _ _ => true
  | .eorShiftImm _ _ => true
  | .eorShiftReg _ _ => true
  | .subImm _ _ => true
  | .subShiftImm _ _ => true
  | .subShiftReg _ _ => true
  | .rsbImm _ _ => true
  | .rsbShiftImm _ _ => true
  | .rsbShiftReg _ _ => true
  | .addImm _ _ => true
  | .addShiftImm _ _ => true
  | .addShiftReg _ _ => true
  | .adcImm _ _ => true
  | .adcShiftImm _ _ => true
  | .adcShiftReg _ _ => true
  | .sbcImm _ _ => true
  | .sbcShiftImm _ _ => true
  | .sbcShiftReg _ _ => true
  | .rscImm _ _ => true
  | .rscShiftImm _ _ => true
  | .rscShiftReg _ _ => true
  | .tstImm _ _ => true
  | .tstShiftImm _ _ => true
  | .tstShiftReg _ _ => true
  | .teqImm _ _ => true
  | .teqShiftImm _ _ => true
  | .teqShiftReg _ _ => true
  | .cmpImm _ _ => true
  | .cmpShiftImm _ _ => true
  | .cmpShiftReg _ _ => true
  | .cmnImm _ _ => true
  | .cmnShiftImm _ _ => true
  | .cmnShiftReg _ _ => true
  | .orrImm _ _ => true
  | .orrShiftImm _ _ => true
  | .orrShiftReg _ _ => true
  | .movImm _ _ => true
  | .movShiftImm _ _ => true
  | .movShiftReg _ _ => true
  | .bicImm _ _ => true
  | .bicShiftImm _ _ => true
  | .bicShiftReg _ _ => true
  | .mvnImm _ _ => true
  | .mvnShiftImm _ _ => true
  | .mvnShiftReg _ _ => true
  | .mul _ => true
  | .mla _ => true
  | .umull _ => true
  | .umlal _ => true
  | .smull _ => true
  | .smlal _ => true
  | .swp _ => true
  | .swpb _ => true
  | .strhReg _ => true
  | .strhImm _ => true
  | .ldrhReg _ => true
  | .ldrhImm _ => true
  | .ldrsbReg _ => true
  | .ldrsbImm _ => true
  | .ldrshReg _ => true
  | .ldrshImm _ => true
  | .ldrdReg _ => c == .a9
  | .ldrdImm _ => c == .a9
  | .strdReg _ => c == .a9
  | .strdImm _ => c == .a9
  | .unkDoubleA7 word => c == .a7 && word.extractLsb' 25 3 == 0 && word.extractLsb' 20 1 == 0 && word.extractLsb' 6 2 == 3 &&
      word.extractLsb' 4 1 == 1
  | .mrs _ => true
  | .msrCpsrReg _ => true
  | .msrSpsrReg _ => true
  | .msrCpsrImm _ => true
  | .msrSpsrImm _ => true
  | .bx _ => true
  | .blxReg _ => c == .a9
  | .bkpt _ => true
  | .clz _ => c == .a9
  | .qadd _ => c == .a9
  | .qsub _ => c == .a9
  | .qdadd _ => c == .a9
  | .qdsub _ => c == .a9
  | .smlaXy _ => c == .a9
  | .smlawY _ => c == .a9
  | .smulwY _ => c == .a9
  | .smlalXy _ => c == .a9
  | .smulXy _ => c == .a9
  | .strImm o => notT o.p o.w
  | .strReg o => notT o.p o.w
  | .ldrImm o => notT o.p o.w
  | .ldrReg o => notT o.p o.w
  | .strbImm o => notT o.p o.w
  | .strbReg o => notT o.p o.w
  | .ldrbImm o => notT o.p o.w && notPldFields c o.cond o.p o.w
  | .ldrbReg o => notT o.p o.w && notPldFields c o.cond o.p o.w
  | .strtImm _ => true
  | .strtReg _ => true
  | .ldrtImm _ => true
  | .ldrtReg _ => true
  | .strbtImm _ => true
  | .strbtReg _ => true
  | .ldrbtImm _ => true
  | .ldrbtReg _ => true
  | .stm _ => true
  | .ldm _ => true
  | .b o => notBlxFields c o.cond
  | .bl o => notBlxFields c o.cond
  | .blxLabel _ => c == .a9
  | .pld _ => c == .a9
  | .mrc _ => c == .a9
  | .mcr _ => c == .a9
  | .coprocOther o => !(c == .a9 && o.cp == 15 && o.op1 == 0)
  | .swi _ => true
  | .unkMiscA word => isMiscA c word
  | .unkMiscB word => isMiscB c word
  | .unkImm word => word.extractLsb' 23 5 == 6 && word.extractLsb' 20 2 == 0
  | .unk1001 word => is1001 word
  | .unkMedia word => word.extractLsb' 25 3 == 3 && word.extractLsb' 4 1 == 1 && !isPld c word
  | .unkLdcStc word => word.extractLsb' 25 3 == 6
  | .unkCdp word => word.extractLsb' 24 4 == 14 && word.extractLsb' 4 1 == 0
  | .tLslImm _ => true
  | .tLsrImm _ => true
  | .tAsrImm _ => true
  | .tAddReg _ => true
  | .tSubReg _ => true
  | .tAddImm3 _ => true
  | .tSubImm3 _ => true
  | .tMovImm8 _ => true
  | .tCmpImm8 _ => true
  | .tAddImm8 _ => true
  | .tSubImm8 _ => true
  | .tAnd _ => true
  | .tEor _ => true
  | .tLslReg _ => true
  | .tLsrReg _ => true
  | .tAsrReg _ => true
  | .tAdc _ => true
  | .tSbc _ => true
  | .tRorReg _ => true
  | .tTst _ => true
  | .tNeg _ => true
  | .tCmpReg _ => true
  | .tCmn _ => true
  | .tOrr _ => true
  | .tMul _ => true
  | .tBic _ => true
  | .tMvn _ => true
  | .tAddHi _ => true
  | .tCmpHi _ => true
  | .tMovHi _ => true
  | .tBx _ => true
  | .tBlxReg _ => c == .a9
  | .tBxH1 _ => c == .a7
  | .tLdrPc _ => true
  | .tStrReg _ => true
  | .tStrbReg _ => true
  | .tLdrReg _ => true
  | .tLdrbReg _ => true
  | .tStrhReg _ => true
  | .tLdsbReg _ => true
  | .tLdrhReg _ => true
  | .tLdshReg _ => true
  | .tStrImm _ => true
  | .tLdrImm _ => true
  | .tStrbImm _ => true
  | .tLdrbImm _ => true
  | .tStrhImm _ => true
  | .tLdrhImm _ => true
  | .tStrSp _ => true
  | .tLdrSp _ => true
  | .tAddPc _ => true
  | .tAddSp _ => true
  | .tIncSp _ => true
  | .tDecSp _ => true
  | .tPush _ => true
  | .tPop _ => true
  | .tBkpt _ => true
  | .tUnk1011 half => half.extractLsb' 12 4 == 11 && half.extractLsb' 8 4 != 0 && half.extractLsb' 9 2 != 2 &&
      half.extractLsb' 8 4 != 14
  | .tStmia _ => true
  | .tLdmia _ => true
  | .tBcond o => decide (o.cond.toNat < 14)
  | .tUnkDe half => half.extractLsb' 8 8 == 222
  | .tSwi _ => true
  | .tB _ => true
  | .tBlPrefix _ => true
  | .tBlSuffix _ => true
  | .tBlxSuffix _ => c == .a9
  | .tUnk11101 half => c == .a7 && half.extractLsb' 11 5 == 29

end Sys2Proof
end

