-- ==== Sys2Proof/Certificates/Slice0/Obligations.lean ====
section
/-! DEFINITION. The statements for the provers, in the terms of Safety.lean. A statement cites the rules it formalises in its
docstring; OBLIGATIONS.json lists them. -/

open Sys2Proof Sys2Proof.Machine

/-- O1. Every row of the opcode table keeps every bit of its operands through encode and decode (R134 to R152). -/
def Obligations.DecodeEncode : Prop :=
  ∀ (c : CoreId) (i : Instr), wellFormed c i = true → decode c (encode i) = i

/-- O2. Decoding is total and loses no bit (R131 to R137, R150). -/
def Obligations.EncodeDecode : Prop :=
  ∀ (c : CoreId) (w : Code), encode (decode c w) = w ∧ wellFormed c (decode c w) = true

/-- O3. Words of the instruction rules' own examples. -/
def Obligations.DecodeSpecWords : Prop :=
  decode .a9 (.arm 0xE20000FF) = .andImm { cond := 14, s := 0, rn := 0, rd := 0 } { rotate := 0, imm8 := 0xFF } ∧
  decode .a7 (.arm 0xE0232204) =
    .eorShiftImm { cond := 14, s := 0, rn := 3, rd := 2 } { amount := 4, type := .lsl, rm := 4 } ∧
  decode .a7 (.arm 0xE0203291) = .mla { cond := 14, s := 0, rd := 0, rn := 3, rs := 2, rm := 1 } ∧
  decode .a7 (.arm 0xE5910004) = .ldrImm { cond := 14, p := 1, u := 1, w := 0, rn := 1, rd := 0, offset := 4 } ∧
  decode .a9 (.arm 0xE8BD8003) = .ldm { cond := 14, p := 0, u := 1, s := 0, w := 1, rn := 13, list := 0x8003 } ∧
  decode .a7 (.arm 0xE12FFF1E) = .bx { cond := 14, sbo := 0xFFF, rm := 14 } ∧
  decode .a7 (.arm 0xEF123456) = .swi { cond := 14, comment := 0x123456 } ∧
  decode .a9 (.arm 0xEE110F10) = .mrc { cond := 14, crn := 1, rd := 0, op2 := 0, crm := 0 } ∧
  decode .a9 (.arm 0xE1020051) = .qadd { cond := 14, rn := 2, rd := 0, sbz := 0, rm := 1 } ∧
  decode .a7 (.arm 0xE321F012) = .msrCpsrImm { cond := 14, mask := 1, sbo := 15, rotate := 0, imm8 := 0x12 } ∧
  decode .a7 (.thumb 0x0088) = .tLslImm { imm5 := 2, rs := 1, rd := 0 } ∧
  decode .a9 (.thumb 0x4770) = .tBx { h2 := 1, rsLow := 6, sbz := 0 } ∧
  decode .a7 (.thumb 0xB501) = .tPush { r := 1, rlist := 1 } ∧
  decode .a7 (.thumb 0xDF12) = .tSwi { comment := 0x12 }

/-- O4. The invariant of Safety.lean at `State.reset` (R45; the zero boot ROM images are log 5). -/
def Obligations.ResetInvariant : Prop :=
  State.reset.Inv

/-- O5. The invariant of Safety.lean (R14, R19, R28, R31, R37, R541; the canonical form of memory is log 7). -/
def Obligations.StepKeepsInvariant : Prop :=
  ∀ s t : State, s.Inv → step s = .next t → t.Inv

/-- O6. The table of R45. -/
def Obligations.ConstructedState : Prop :=
  ∀ (par : Parameters) (a b : List Byte), a.length = par.biosSize.get .a7 → b.length = par.biosSize.get .a9 →
    let s := construct par (some a) (some b)
    s.par = par ∧
    (∀ c, let k := s.core c
      (∀ i, k.reg i = 0) ∧ k.bankR13 = .all 0 ∧ k.bankR14 = .all 0 ∧ (∀ i : Fin 5, k.fiqR8.get i = 0) ∧
      (∀ i : Fin 5, k.nonfiqR8.get i = 0) ∧ k.cpsr = 0x000000D3 ∧ k.spsr = .all 0 ∧ k.pipe0 = 0 ∧ k.pipe1 = 0 ∧
      k.halted = false ∧ k.ime = false ∧ k.ie = 0 ∧ k.ifl = 0 ∧ k.irqLatch = false ∧ k.timestamp = 0 ∧
      k.booted = false ∧ k.unknownLog = [] ∧ k.mmio = blockRegistrations par c ∧ TablesFresh c s) ∧
    s.ctl.cp15Control = 0x00002078 ∧ s.ctl.cp15Dtcm = 0 ∧ s.ctl.cp15Itcm = 0 ∧ s.ctl.wramMode = 0 ∧
    s.ctl.cartOwner = 0 ∧
    (∀ d o, d ≠ .biosA7 → d ≠ .biosA9 → s.byteAt d o = 0) ∧
    (∀ o (h : o < a.length), s.byteAt .biosA7 o = a[o]) ∧ (∀ o (h : o < b.length), s.byteAt .biosA9 o = b[o]) ∧
    s.currentTime = 0 ∧ s.queue = [] ∧ s.events = [] ∧ s.nextId = 0 ∧ s.fault = none

/-- O7. R570, and what R571 says is not touched. -/
def Obligations.ResetCore : Prop :=
  ∀ (c : CoreId) (s : State), let t := resetCore c s; let k := t.core c
    (∀ i, k.reg i = 0) ∧ k.bankR13 = .all 0 ∧ k.bankR14 = .all 0 ∧ (∀ i : Fin 5, k.fiqR8.get i = 0) ∧
    (∀ i : Fin 5, k.nonfiqR8.get i = 0) ∧ k.cpsr = 0x000000D3 ∧ k.spsr = .all 0 ∧ k.pipe0 = 0 ∧ k.pipe1 = 0 ∧
    k.halted = false ∧ k.ime = false ∧ k.ie = 0 ∧ k.ifl = 0 ∧ k.irqLatch = false ∧ k.timestamp = 0 ∧
    k.booted = false ∧ k.unknownLog = [] ∧ k.mmio = (s.core c).mmio ∧
    (c = .a9 → t.ctl.cp15Control = 0x00002078 ∧ t.ctl.cp15Dtcm = 0 ∧ t.ctl.cp15Itcm = 0 ∧ TablesFresh .a9 t) ∧
    (c = .a7 → t.ctl = s.ctl ∧ k.pageTable = (s.core c).pageTable) ∧
    (∀ d, d ≠ c → t.core d = s.core d) ∧ t.buf = s.buf ∧ t.fields = s.fields ∧ t.ctl.wramMode = s.ctl.wramMode ∧
    t.ctl.cartOwner = s.ctl.cartOwner ∧ t.ctl.video = s.ctl.video ∧ t.par = s.par ∧ t.currentTime = s.currentTime ∧
    t.queue = s.queue ∧ t.events = s.events ∧ t.nextId = s.nextId ∧ t.fault = s.fault

/-- O8. R573, its state afterwards. -/
def Obligations.DirectBoot : Prop :=
  ∀ (c : CoreId) (entry p0 p1 : Word) (s : State), (s.core c) = (s.core c).resetCore →
    Fetches false entry { s with running := c } p0 p1 →
    ∃ t, directBoot c entry s = .next t ∧ t.running = c ∧ JumpedTo false entry p0 p1 t ∧
      t.x 13 = s.par.bootSpSys.get c ∧ t.x 12 = entry ∧ t.x 14 = entry ∧ (∀ i, i < 12 → t.x i = 0) ∧
      t.cur.cpsr = 0x000000DF ∧ t.cur.bankR13.svc = s.par.bootSpSvc.get c ∧ t.cur.bankR13.irq = s.par.bootSpIrq.get c ∧
      t.cur.bankR13.usr = 0 ∧ t.cur.bankR13.fiq = 0 ∧ t.cur.bankR13.abt = 0 ∧ t.cur.bankR13.und = 0 ∧
      t.cur.bankR14 = .all 0 ∧ (∀ i : Fin 5, t.cur.fiqR8.get i = 0) ∧ (∀ i : Fin 5, t.cur.nonfiqR8.get i = 0) ∧
      t.cur.spsr = .all 0 ∧ t.cur.mmio = (s.core c).mmio ∧ t.cur.pageTable = (s.core c).pageTable ∧
      t.cur.booted = true ∧ t.cur.halted = false ∧ t.cur.ime = false ∧ t.cur.ie = 0 ∧ t.cur.ifl = 0 ∧
      t.cur.irqLatch = false ∧ t.cur.timestamp = 0 ∧ t.cur.unknownLog = [] ∧ (∀ d, d ≠ c → t.core d = s.core d) ∧
      t.par = s.par ∧ t.ctl = s.ctl ∧ t.buf = s.buf ∧ t.fields = s.fields ∧ t.currentTime = s.currentTime ∧
      t.queue = s.queue ∧ t.events = s.events ∧ t.nextId = s.nextId ∧ t.fault = s.fault ∧ t.owner = s.owner ∧
      t.freeCount = s.freeCount

/-- O9. R170 and R173 for one iteration; `nextCode` is the code in `pipe[0]`. -/
def Obligations.StepRunsDecodedInstruction : Prop :=
  ∀ (c : CoreId) (target : Dword) (rest : List OwnerCall) (s : State) (p : Word), s.fault = none →
    s.owner = .run c target :: rest → (s.core c).booted = true → (s.core c).timestamp.toNat < target.toNat →
    (s.core c).halted = false → ((s.core c).irqLatch && !(s.core c).iBit) = false →
    plainRead c ((s.core c).reg 15) (fetchWidth (s.core c).t) { s with running := c } = some p →
    step s = Res.bind (exec (decode c (nextCode (s.core c)))
        { ({ s with running := c } : State).setPipe (s.core c).pipe1 p with branched := false })
      (fun u => .next (addCycles (cyclesOf s.par c (nextCode (s.core c)) (decode c (nextCode (s.core c))) (s.core c))
        (advance (fetchStep (s.core c).t) u))) ∧
    (s.par.cycles = [] →
      cyclesOf s.par c (nextCode (s.core c)) (decode c (nextCode (s.core c))) (s.core c) = 1)

/-- O10. R170, R171, R576; that a refused run is dropped from the owner's list is log 24. -/
def Obligations.RunLoopEnds : Prop :=
  ∀ (c : CoreId) (target : Dword) (rest : List OwnerCall) (s : State), s.fault = none →
    s.owner = .run c target :: rest →
    ((s.core c).booted = false → step s = .next { s with owner := rest }) ∧
    ((s.core c).booted = true → target.toNat ≤ (s.core c).timestamp.toNat → step s = .next { s with owner := rest }) ∧
    ((s.core c).booted = true → (s.core c).timestamp.toNat < target.toNat → (s.core c).halted = true →
      step s = .next { s.setCore c { s.core c with timestamp := target } with owner := rest })

/-- O11. R172; `raiseIrq` is R504. -/
def Obligations.IrqAtBoundary : Prop :=
  ∀ (c : CoreId) (target : Dword) (rest : List OwnerCall) (s : State), s.fault = none →
    s.owner = .run c target :: rest → (s.core c).booted = true → (s.core c).timestamp.toNat < target.toNat →
    (s.core c).halted = false →
    ((s.core c).irqLatch = true ∧ (s.core c).iBit = false →
      step s = Res.bind (raiseIrq { s with running := c }) coreStep) ∧
    (¬((s.core c).irqLatch = true ∧ (s.core c).iBit = false) → step s = coreStep { s with running := c }) ∧
    (∀ t, raiseIrq { s with running := c } = .next t → (t.core c).timestamp = (s.core c).timestamp)

/-- O12. The table of R181. -/
def Obligations.ConditionTable : Prop :=
  ∀ k : CoreState,
    (condPassed 0 k = true ↔ k.z = true) ∧ (condPassed 1 k = true ↔ k.z = false) ∧
    (condPassed 2 k = true ↔ k.c = true) ∧ (condPassed 3 k = true ↔ k.c = false) ∧
    (condPassed 4 k = true ↔ k.n = true) ∧ (condPassed 5 k = true ↔ k.n = false) ∧
    (condPassed 6 k = true ↔ k.v = true) ∧ (condPassed 7 k = true ↔ k.v = false) ∧
    (condPassed 8 k = true ↔ k.c = true ∧ k.z = false) ∧ (condPassed 9 k = true ↔ k.c = false ∨ k.z = true) ∧
    (condPassed 10 k = true ↔ k.n = k.v) ∧ (condPassed 11 k = true ↔ k.n ≠ k.v) ∧
    (condPassed 12 k = true ↔ k.z = false ∧ k.n = k.v) ∧ (condPassed 13 k = true ↔ k.z = true ∨ k.n ≠ k.v) ∧
    condPassed 14 k = true ∧ condPassed 15 k = false

/-- O13. R182, R136, R268, R470; `armCond` names every constructor with a condition field. -/
def Obligations.FailedCondition : Prop :=
  (∀ (i : Instr) (cc : BitVec 4) (s : State), armCond i = some cc → condPassed cc s.cur = false → exec i s = .next s) ∧
  (∀ (o : TCondOps) (s : State), condPassed o.cond s.cur = false → exec (.tBcond o) s = .next s) ∧
  (∀ (o : PldOps) (s : State), exec (.pld o) s = .next s) ∧
  (∀ (o : BlxLabelOps) (s : State), s.running = .a7 → exec (.blxLabel o) s = .next s)

/-- O14. R510, R572; the two ways a fault shows in the model are log 12. -/
def Obligations.HardFaultStops : Prop :=
  (∀ (s : State) (f : Fault), s.fault = some f → step s = .fault f) ∧
  (∀ par b, (construct par none b).fault = some (.missingBios .a7)) ∧
  (∀ par a, (construct par (some a) none).fault = some (.missingBios .a9))

/-- O15. R545, one turn of the loop. The model's choice (logs 1 and 30): a turn is a step, and the call stays at the head of the owner's list until it ends. -/
def Obligations.SchedulerFires : Prop :=
  ∀ (rest : List OwnerCall) (s : State), s.fault = none → s.owner = .runEvents :: rest →
    (s.queue = [] → step s = .next { s with owner := rest }) ∧
    (∀ t id q, s.queue = (t, id) :: q →
      (s.currentTime.toNat < t.toNat → step s = .next { s with owner := rest }) ∧
      (t.toNat ≤ s.currentTime.toNat → ∀ e ∈ s.events, e.id = id → s.HandlesFresh →
        step s = runScript e.callback { s with queue := q } ∧
        ∀ u, step s = .next u → u.owner = s.owner))

/-- O16. R542, the upper bound; R543. -/
def Obligations.QueueOperations : Prop :=
  (∀ (delay : Dword) (id : Nat) (s : State), s.QueueAscending →
    let t := s.currentTime + delay
    ∃ before after, s.queue = before ++ after ∧ addEvent delay id s = { s with queue := before ++ (t, id) :: after } ∧
      (∀ e ∈ before, e.1.toNat ≤ t.toNat) ∧ ∀ e ∈ after, t.toNat < e.1.toNat) ∧
  (∀ (id : Nat) (s : State), (cancelEvent id s).queue.Sublist s.queue ∧
    (∀ e, e ∈ (cancelEvent id s).queue ↔ e ∈ s.queue ∧ e.2 ≠ id) ∧
    cancelEvent id s = { s with queue := (cancelEvent id s).queue })

/-- O17. R72, R73, R75, R77 over one buffer. -/
def Obligations.WriteThenRead : Prop :=
  ∀ (c : CoreId) (a : Word) (w : Width) (v : Word) (s : State) (b : Buf) (o : Nat), s.buf.wf →
    locate c (alignDown a w) .write s = .buffer b o → locate c (alignDown a w) .read s = .buffer b o →
    ∃ t, memWrite c a w v s = .next t ∧ memRead c a w t = .next (truncate w v, t) ∧ StoredAt b o w v s t ∧
      t = { s with buf := t.buf }

/-- O18. R72 to R74. -/
def Obligations.LittleEndian : Prop :=
  (∀ (m : List Host.Cell) (o : Nat),
    (readBytes m o .w8).toNat = (Memory.get m o).toNat ∧
    (readBytes m o .w16).toNat = (Memory.get m o).toNat + 256 * (Memory.get m (o + 1)).toNat ∧
    (readBytes m o .w32).toNat = (Memory.get m o).toNat + 256 * (Memory.get m (o + 1)).toNat +
      256 ^ 2 * (Memory.get m (o + 2)).toNat + 256 ^ 3 * (Memory.get m (o + 3)).toNat) ∧
  (∀ (m : List Host.Cell) (o : Nat) (v : Word), Memory.wf m → let n := writeBytes m o .w32 v
    (readBytes n o .w8).toNat = v.toNat % 256 ∧ (readBytes n (o + 1) .w8).toNat = v.toNat / 256 % 256 ∧
    (readBytes n o .w16).toNat = v.toNat % 65536 ∧ (readBytes n (o + 2) .w16).toNat = v.toNat / 65536 ∧
    readBytes n o .w32 = v)

/-- O19. R90 to R92, the outward rounding included; the uniformity test over granules is log 8, bounds as numbers log 32. -/
def Obligations.RebuildAgrees : Prop :=
  (∀ (c : CoreId) (low high : Nat) (s : State) (a : Word) (d : Dir), high ≤ 2 ^ 32 →
    let page := s.par.pageSize
    low / page * page ≤ a.toNat → a.toNat < (high + page - 1) / page * page →
    locate c a d (updateMemoryMap c low high s) = resolve s.par s.ctl c a d) ∧
  (∀ s : State, s.par = .default → let t := updateMemoryMap .a7 0 (2 ^ 32) s
    tableEntry t.par t.a7.pageTable .a7 0 .read = some (.biosA7, 0) ∧
    tableEntry t.par t.a7.pageTable .a7 0 .write = none)

/-- O20. R88. -/
def Obligations.TcmPriority : Prop :=
  ∀ (par : Parameters) (ctl : RegionControl) (a : Word) (d : Dir),
    let itcm := itcmEnabled ctl d = true ∧ a.toNat < tcmWindow ctl.cp15Itcm
    let dtcm := dtcmEnabled ctl d = true ∧ dtcmBase ctl ≤ a.toNat ∧ a.toNat < dtcmBase ctl + tcmWindow ctl.cp15Dtcm
    (itcm → resolve par ctl .a9 a d = .buffer .itcm (a.toNat % 0x8000)) ∧
    (¬itcm → dtcm → resolve par ctl .a9 a d = .buffer .dtcm ((a.toNat - dtcmBase ctl) % 0x4000)) ∧
    (¬itcm → ¬dtcm → resolve par ctl .a9 a d = regionAt par ctl .a9 a.toNat d) ∧
    resolve par ctl .a7 a d = regionAt par ctl .a7 a.toNat d

/-- O21. R82 and R84 for main RAM, R110. -/
def Obligations.SharedMainRam : Prop :=
  ∀ (c c' : CoreId) (a : Word) (w : Width) (v : Word) (s : State), s.buf.wf → a.toNat / 2 ^ 24 = 2 →
    s.par.regions = Parameters.default.regions → (∀ e, TablesFresh e s) →
    s.ctl.controlBit 16 = false → s.ctl.controlBit 18 = false →
    ∃ t, memWrite c a w v s = .next t ∧ memRead c' a w t = .next (truncate w v, t) ∧
      StoredAt .mainRam ((alignDown a w).toNat % 0x400000) w v s t

/-- O22. R87, R99. -/
def Obligations.AccessFaults : Prop :=
  ∀ (c : CoreId) (a : Word) (w : Width) (v : Word) (s : State), let b := alignDown a w
    (locate c b .read s = .unmapped → memRead c a w s = .fault (.unimplementedAccess c b w .read)) ∧
    (locate c b .write s = .unmapped → memWrite c a w v s = .fault (.unimplementedAccess c b w .write)) ∧
    ((∀ e ∈ (s.core c).mmio, ¬(e.addr = b ∧ e.width = w)) →
      (locate c b .read s = .mmio → memRead c a w s = .fault (.unimplementedAccess c b w .read)) ∧
      (locate c b .write s = .mmio → memWrite c a w v s = .fault (.unimplementedAccess c b w .write)))

/-- O23. R81, R86. -/
def Obligations.ReadOnlyRegions : Prop :=
  ∀ (c : CoreId) (a : Word) (w : Width) (v : Word) (s : State), TablesFresh c s →
    s.par.regions = Parameters.default.regions →
    (c = .a9 → s.ctl.controlBit 16 = false ∧ s.ctl.controlBit 18 = false) →
    (a.toNat / 2 ^ 24 = (match c with | .a7 => 0x00 | .a9 => 0xFF) → memWrite c a w v s = .next s) ∧
    (c = .a7 → a.toNat / 2 ^ 24 = 0 → a.toNat < s.par.biosSize.get .a7 →
      memRead c a w s = .next (readBytes s.buf.biosA7 (alignDown a w).toNat w, s)) ∧
    (c = .a9 → 0xFFFF0000 ≤ a.toNat → a.toNat < 0xFFFF0000 + s.par.biosSize.get .a9 →
      memRead c a w s = .next (readBytes s.buf.biosA9 ((alignDown a w).toNat - 0xFFFF0000) w, s)) ∧
    (0x08 ≤ a.toNat / 2 ^ 24 → a.toNat / 2 ^ 24 ≤ 0x0A → memWrite c a w v s = .next s ∧
      memRead c a w s = .next (if c = .a9 ↔ s.ctl.cartOwner = 0 then truncate w s.par.openBus else 0, s))

/-- O24. R96, R100, R101. -/
def Obligations.MmioHandlers : Prop :=
  ∀ (c : CoreId) (r : Registration) (s : State), let t := registerMmio c r s
    (∀ a : Word, alignDown a r.width = r.addr → (∀ d, locate c r.addr d t = .mmio) →
      (∀ f, r.read = .direct f → memRead c a r.width t = .next (truncate r.width ((t.field f).setWidth 32), t)) ∧
      (∀ f m v, r.write = .direct f m → memWrite c a r.width v t =
        .next (t.setField f ((t.field f &&& ~~~(m.setWidth 64)) ||| ((truncate r.width v &&& m).setWidth 64)))) ∧
      (∀ w, r.read = .stub w → memRead c a r.width t = .next (truncate r.width w, t)) ∧
      (∀ v, r.write = .stub → memWrite c a r.width v t = .next t)) ∧
    (∀ c' a' w', (c' ≠ c ∨ a' ≠ r.addr ∨ w' ≠ r.width) →
      findMmio (t.core c').mmio a' w' = findMmio (s.core c').mmio a' w')

/-- O25. R526, R527, R531. -/
def Obligations.InterruptRegisters : Prop :=
  ∀ (c : CoreId) (v : Word) (s : State), (s.core c).mmio = blockRegistrations .default c →
    (∀ (a : Word) d, a.toNat / 2 ^ 24 = 4 → locate c a d s = .mmio) →
    let k := s.core c
    (∀ w, memRead c 0x04000208 w s = .next (if k.ime then 1 else 0, s)) ∧
    memRead c 0x04000210 .w32 s = .next (k.ie, s) ∧ memRead c 0x04000210 .w16 s = .next (k.ie &&& 0xFFFF, s) ∧
    memRead c 0x04000212 .w16 s = .next (k.ie >>> 16, s) ∧ memRead c 0x04000214 .w32 s = .next (k.ifl, s) ∧
    memRead c 0x04000214 .w16 s = .next (k.ifl &&& 0xFFFF, s) ∧ memRead c 0x04000216 .w16 s = .next (k.ifl >>> 16, s) ∧
    (∀ w, memWrite c 0x04000208 w v s = .next (s.setCore c { k with ime := v.getLsbD 0 }.updateLatch)) ∧
    memWrite c 0x04000210 .w32 v s = .next (s.setCore c { k with ie := v }.updateLatch) ∧
    memWrite c 0x04000210 .w16 v s =
      .next (s.setCore c { k with ie := (k.ie &&& 0xFFFF0000) ||| (v &&& 0xFFFF) }.updateLatch) ∧
    memWrite c 0x04000212 .w16 v s = .next (s.setCore c { k with ie := (k.ie &&& 0xFFFF) ||| (v <<< 16) }.updateLatch) ∧
    memWrite c 0x04000214 .w32 v s = .next (s.setCore c { k with ifl := k.ifl &&& ~~~v }.updateLatch) ∧
    memWrite c 0x04000214 .w16 v s = .next (s.setCore c { k with ifl := k.ifl &&& ~~~(v &&& 0xFFFF) }.updateLatch) ∧
    memWrite c 0x04000216 .w16 v s = .next (s.setCore c { k with ifl := k.ifl &&& ~~~(v <<< 16) }.updateLatch) ∧
    (∀ p ∈ [((0x04000209 : Word), Width.w8), (0x0400020A, .w8), (0x0400020B, .w8), (0x0400020A, .w16), (0x04000210, .w8),
        (0x04000211, .w8), (0x04000212, .w8), (0x04000213, .w8), (0x04000214, .w8), (0x04000215, .w8), (0x04000216, .w8),
        (0x04000217, .w8)],
      memRead c p.1 p.2 s = .fault (.unimplementedAccess c p.1 p.2 .read) ∧
      memWrite c p.1 p.2 v s = .fault (.unimplementedAccess c p.1 p.2 .write))

/-- O26. R523. -/
def Obligations.SendInterrupt : Prop :=
  ∀ (c : CoreId) (kind : BitVec 5) (s : State), let k := s.core c; let t := (sendInterrupt c kind s).core c
    (∀ j < 32, t.ifl.getLsbD j = (k.ifl.getLsbD j || j == kind.toNat)) ∧
    (k.ie.getLsbD kind.toNat = true ∧ (k.ime = true ∨ c = .a7) → t.halted = false) ∧
    (¬(k.ie.getLsbD kind.toNat = true ∧ (k.ime = true ∨ c = .a7)) → t.halted = k.halted) ∧ t.LatchExact ∧
    t = { k with ifl := t.ifl, halted := t.halted, irqLatch := t.irqLatch } ∧ sendInterrupt c kind s = s.setCore c t

/-- O27. R17. -/
def Obligations.BankSwap : Prop :=
  ∀ (m : Word) (new : Bank) (s : State), bankOf (m.extractLsb' 0 5) = some new →
    ∃ t, switchMode m s = .next t ∧ t.cur.mode = m.extractLsb' 0 5 ∧ StatusKept 0x1F s t ∧ t.cur.spsr = s.cur.spsr ∧
      PipeKept s t ∧ (∀ i : BitVec 4, i < 8 ∨ i = 15 → t.x i = s.x i) ∧ t = s.setCur t.cur ∧
      (s.cur.bank = new → (∀ i, t.x i = s.x i) ∧ t.cur.bankR13 = s.cur.bankR13 ∧ t.cur.bankR14 = s.cur.bankR14) ∧
      (s.cur.bank ≠ new →
        t.cur.bankR13 = s.cur.bankR13.set s.cur.bank (s.x 13) ∧ t.x 13 = s.cur.bankR13.get new ∧
        t.cur.bankR14 = s.cur.bankR14.set s.cur.bank (s.x 14) ∧ t.x 14 = s.cur.bankR14.get new) ∧
      (s.cur.bank = .fiq → new ≠ .fiq → t.cur.r8to12 = s.cur.nonfiqR8 ∧ t.cur.fiqR8 = s.cur.r8to12) ∧
      (s.cur.bank ≠ .fiq → new = .fiq → t.cur.r8to12 = s.cur.fiqR8 ∧ t.cur.nonfiqR8 = s.cur.r8to12) ∧
      ((s.cur.bank = .fiq ↔ new = .fiq) →
        t.cur.r8to12 = s.cur.r8to12 ∧ t.cur.fiqR8 = s.cur.fiqR8 ∧ t.cur.nonfiqR8 = s.cur.nonfiqR8)

/-- O28. R18, its testable property. -/
def Obligations.BankIsolation : Prop :=
  ∀ (m1 m2 : Word) (b1 b2 : Bank) (i : BitVec 4) (v w : Word) (s : State), bankOf (m1.extractLsb' 0 5) = some b1 →
    bankOf (m2.extractLsb' 0 5) = some b2 → b1 ≠ b2 → s.cur.bank = b1 →
    (i = 13 ∨ i = 14 ∨ (8 ≤ i ∧ i ≤ 12 ∧ (b1 = .fiq ∨ b2 = .fiq))) →
    ∃ t, Res.bind (switchMode m2 (s.setX i v)) (fun u => switchMode m1 (u.setX i w)) = .next t ∧ t.x i = v ∧
      (i = 13 → t.cur.bankR13.get b2 = w) ∧ (i = 14 → t.cur.bankR14.get b2 = w)

/-- O29. R14 (and R22 for the value written). -/
def Obligations.InvalidMode : Prop :=
  ∀ (v : Word) (s : State),
    ((∀ m ∈ [(0x10 : BitVec 5), 0x11, 0x12, 0x13, 0x17, 0x1B, 0x1F], v.extractLsb' 0 5 ≠ m) →
      switchMode v s = .fault (.invalidMode (v.extractLsb' 0 5)) ∧
      writeCpsr v s = .fault (.invalidMode (v.extractLsb' 0 5))) ∧
    ((∃ m ∈ [(0x10 : BitVec 5), 0x11, 0x12, 0x13, 0x17, 0x1B, 0x1F], v.extractLsb' 0 5 = m) →
      (∃ t, switchMode v s = .next t) ∧ ∃ t, writeCpsr v s = .next t ∧ t.cur.cpsr = v)

/-- O30. R27 for every rule that reads or writes the SPSR. -/
def Obligations.SpsrFaults : Prop :=
  ∀ (s : State), s.cur.mode = 0x10 ∨ s.cur.mode = 0x1F → ∀ cc, condPassed cc s.cur = true →
    (∀ o : MrsOps, o.cond = cc → o.r = 1 → exec (.mrs o) s = .fault (.invalidPsrAccess s.cur.mode)) ∧
    (∀ o : MsrRegOps, o.cond = cc → exec (.msrSpsrReg o) s = .fault (.invalidPsrAccess s.cur.mode)) ∧
    (∀ o : MsrImmOps, o.cond = cc → exec (.msrSpsrImm o) s = .fault (.invalidPsrAccess s.cur.mode)) ∧
    (∀ i h r f, dpValue i s = some (h, r, f) → h.cond = cc → h.rd = 15 → h.s = 1 →
      exec i s = .fault (.invalidPsrAccess s.cur.mode)) ∧
    (∀ (o : BdtOps) vs u, o.cond = cc → o.s = 1 → o.list.getLsbD 15 = true →
      (o.w = 1 → o.rn ≠ 15) →
      loadList (listRegs o.list) (blockStart o.p o.u (s.x o.rn) (listRegs o.list).length) s = .next (vs, u) →
      exec (.ldm o) s = .fault (.invalidPsrAccess s.cur.mode)) ∧
    (∀ (o : BdtOps) d u, s.running = .a7 → o.cond = cc → o.s = 1 → o.list = 0 → (o.w = 1 → o.rn ≠ 15) →
      memRead .a7 (blockStart o.p o.u (s.x o.rn) 16) .w32 s = .next (d, u) →
      exec (.ldm o) s = .fault (.invalidPsrAccess s.cur.mode))

/-- O31. R502, R505; the mode's status bits are 4:0, I is bit 7, T bit 5. -/
def Obligations.EnterException : Prop :=
  ∀ (m vector lr p0 p1 : Word) (b : Bank) (s : State), (m = 0x12 ∧ b = .irq) ∨ (m = 0x13 ∧ b = .svc) →
    let base : Word := if s.running = .a9 ∧ s.ctl.cp15Control.getLsbD 13 = true then 0xFFFF0000 else 0
    Fetches false (base + vector) s p0 p1 →
    ∃ t, enterException m vector lr s = .next t ∧ JumpedTo false (base + vector) p0 p1 t ∧
      t.cur.spsr.get b = some s.cur.cpsr ∧ (∀ d, d ≠ b → t.cur.spsr.get d = s.cur.spsr.get d) ∧
      t.cur.mode = m.extractLsb' 0 5 ∧ t.cur.iBit = true ∧ StatusKept 0xBF s t ∧ t.x 14 = lr ∧
      (∀ i, i ≠ 14 → i ≠ 15 → t.x i = (swapBanks s.cur.bank b s.cur).reg i) ∧
      t.cur.bankR13 = (swapBanks s.cur.bank b s.cur).bankR13 ∧ t.cur.bankR14 = (swapBanks s.cur.bank b s.cur).bankR14 ∧
      (s.cur.bank ≠ .fiq → ∀ i : BitVec 4, i < 13 → t.x i = s.x i) ∧
      t.cur.halted = s.cur.halted ∧ t.cur.ime = s.cur.ime ∧ t.cur.ie = s.cur.ie ∧ t.cur.ifl = s.cur.ifl ∧
      t.cur.irqLatch = s.cur.irqLatch ∧ t.cur.timestamp = s.cur.timestamp ∧ MemoryKept s t ∧
      (∀ d, d ≠ s.running → t.core d = s.core d) ∧ t.ctl = s.ctl ∧ t.running = s.running

/-- O32. R503, R504, R380, R472. -/
def Obligations.SoftwareInterrupt : Prop :=
  ∀ s : State,
    let svcLr := if s.cur.t then s.x 15 - 2 else s.x 15 - 4
    let irqLr := if s.cur.t then s.x 15 else s.x 15 - 4
    let target : Word := (if s.running = .a9 ∧ s.ctl.cp15Control.getLsbD 13 = true then 0xFFFF0000 else 0) + 8
    raiseIrq s = enterException 0x12 0x18 irqLr s ∧
    ∀ i, (∃ o, i = .swi o ∧ condPassed o.cond s.cur = true) ∨ (∃ o, i = .tSwi o) →
      exec i s = enterException 0x13 0x08 svcLr s ∧
      ∀ p0 p1, Fetches false target s p0 p1 → ∃ t, exec i s = .next t ∧ JumpedTo false target p0 p1 t ∧ t.x 14 = svcLr ∧
        t.cur.spsr.svc = s.cur.cpsr ∧ t.cur.mode = 0x13 ∧ t.cur.iBit = true ∧ t.cur.flags = s.cur.flags ∧
        t.cur.q = s.cur.q ∧ MemoryKept s t

/-- O33. R212; `swapBanks` is the swap BankSwap describes. -/
def Obligations.ExceptionReturn : Prop :=
  ∀ (i : Instr) (h : DpHead) (r v p0 p1 : Word) (f : Flags) (new : Bank) (s : State), dpValue i s = some (h, r, f) →
    h.rd = 15 → h.s = 1 → condPassed h.cond s.cur = true → s.cur.spsr.get s.cur.bank = some v →
    bankOf (v.extractLsb' 0 5) = some new → Fetches (v.getLsbD 5) r s p0 p1 →
    ∃ t, exec i s = .next t ∧ JumpedTo (v.getLsbD 5) r p0 p1 t ∧ t.cur.cpsr = v ∧
      (∀ j, j ≠ 15 → t.x j = (swapBanks s.cur.bank new s.cur).reg j) ∧
      t.cur.bankR13 = (swapBanks s.cur.bank new s.cur).bankR13 ∧
      t.cur.bankR14 = (swapBanks s.cur.bank new s.cur).bankR14 ∧
      t.cur.fiqR8 = (swapBanks s.cur.bank new s.cur).fiqR8 ∧
      t.cur.nonfiqR8 = (swapBanks s.cur.bank new s.cur).nonfiqR8 ∧ t.cur.spsr = s.cur.spsr ∧ MemoryKept s t ∧
      (∀ d, d ≠ s.running → t.core d = s.core d)

/-- O34. R330 over every instruction; `mayChangeMode` names the exceptions. -/
def Obligations.OnlyTheseChangeMode : Prop :=
  ∀ (i : Instr) (s t : State), exec i s = .next t →
    (mayChangeMode i = false → StatusKept 0xF8000020 s t ∧ t.cur.mode = s.cur.mode ∧ t.cur.spsr = s.cur.spsr) ∧
    t.running = s.running ∧
    ∀ c, c ≠ s.running → (t.core c).r = (s.core c).r ∧ (t.core c).cpsr = (s.core c).cpsr ∧
      (t.core c).bankR13 = (s.core c).bankR13 ∧ (t.core c).bankR14 = (s.core c).bankR14 ∧
      (t.core c).spsr = (s.core c).spsr ∧ (t.core c).pipe0 = (s.core c).pipe0 ∧ (t.core c).pipe1 = (s.core c).pipe1

/-- O35. R326, R328; `swapBanks` is the swap BankSwap describes. -/
def Obligations.MsrCpsr : Prop :=
  ∀ (i : Instr) (cc field : BitVec 4) (v : Word) (s : State),
    (∃ o, i = .msrCpsrReg o ∧ o.cond = cc ∧ o.mask = field ∧ v = s.x o.rm) ∨
    (∃ o, i = .msrCpsrImm o ∧ o.cond = cc ∧ o.mask = field ∧ v = (o.imm8.setWidth 32).rotateRight (2 * o.rotate.toNat)) →
    condPassed cc s.cur = true →
    ∃ new : Word,
      (∀ j < 32, new.getLsbD j =
        if field.getLsbD (j / 8) = true ∧ j ≠ 5 ∧ (s.cur.mode = 0x10 → 24 ≤ j) then v.getLsbD j else s.cur.cpsr.getLsbD j) ∧
      (∀ b, bankOf (new.extractLsb' 0 5) = some b →
        exec i s = .next (s.setCur { swapBanks s.cur.bank b s.cur with cpsr := new }.updateLatch)) ∧
      (bankOf (new.extractLsb' 0 5) = none → exec i s = .fault (.invalidMode (new.extractLsb' 0 5)))

/-- O36. R325, R329. -/
def Obligations.PsrTransfer : Prop :=
  (∀ (o : MrsOps) (v : Word) (s : State), condPassed o.cond s.cur = true →
    (o.r = 0 ∧ v = s.cur.cpsr) ∨ (o.r = 1 ∧ s.cur.spsr.get s.cur.bank = some v) →
    Result.Completes (.mrs o)
      { cond := o.cond, rd := o.rd, value := v, flags := s.cur.flags, q := s.cur.q, mask := 0 } s) ∧
  (∀ (i : Instr) (cc field : BitVec 4) (v old : Word) (s : State),
    (∃ o, i = .msrSpsrReg o ∧ o.cond = cc ∧ o.mask = field ∧ v = s.x o.rm) ∨
    (∃ o, i = .msrSpsrImm o ∧ o.cond = cc ∧ o.mask = field ∧ v = (o.imm8.setWidth 32).rotateRight (2 * o.rotate.toNat)) →
    condPassed cc s.cur = true → s.cur.spsr.get s.cur.bank = some old →
    ∃ new : Word,
      (∀ j < 32, new.getLsbD j = if field.getLsbD (j / 8) = true then v.getLsbD j else old.getLsbD j) ∧
      exec i s = .next (s.setCur { s.cur with spsr := s.cur.spsr.set s.cur.bank new })) ∧
  (∀ (o : MrsOps) (s : State), condPassed o.cond s.cur = true → o.r = 1 → s.cur.mode = 0x10 ∨ s.cur.mode = 0x1F →
    exec (.mrs o) s = .fault (.invalidPsrAccess s.cur.mode)) ∧
  (∀ (i : Instr) (cc : BitVec 4) (s : State),
    (∃ o, i = .msrSpsrReg o ∧ o.cond = cc) ∨ (∃ o, i = .msrSpsrImm o ∧ o.cond = cc) → condPassed cc s.cur = true →
    s.cur.mode = 0x10 ∨ s.cur.mode = 0x1F → exec i s = .fault (.invalidPsrAccess s.cur.mode))

/-- O37. R201 to R205, in integers. -/
def Obligations.ShiftByImmediate : Prop :=
  (∀ (n : BitVec 5) (v : Word) (c : Bool),
    (let r := shiftImm .lsl n v c
     r.value.toNat = v.toNat * 2 ^ n.toNat % 2 ^ 32 ∧
     r.carry = if n = 0 then c else decide (v.toNat * 2 ^ n.toNat / 2 ^ 32 % 2 = 1)) ∧
    (let m := if n = 0 then 32 else n.toNat
     let l := shiftImm .lsr n v c
     let a := shiftImm .asr n v c
     l.value.toNat = v.toNat / 2 ^ m ∧ l.carry = decide (v.toNat / 2 ^ (m - 1) % 2 = 1) ∧
     a.value.toInt = v.toInt / 2 ^ m ∧ a.carry = decide (v.toInt / 2 ^ (m - 1) % 2 = 1)) ∧
    (let r := shiftImm .ror n v c
     (n ≠ 0 → (∀ j < 32, r.value.getLsbD j = v.getLsbD ((j + n.toNat) % 32)) ∧ r.carry = v.getLsbD (n.toNat - 1)) ∧
     (n = 0 → r.value.toNat = v.toNat / 2 + c.toNat * 2 ^ 31 ∧ r.carry = decide (v.toNat % 2 = 1)))) ∧
  (∀ (x : ImmOperand) (k : CoreState), let r := operandImm x k
    (∀ j < 32, r.value.getLsbD j = x.imm8.getLsbD ((j + 2 * x.rotate.toNat) % 32)) ∧
    r.carry = if x.rotate = 0 then k.c else r.value.getLsbD 31)

/-- O38. R206, in integers; R207 for R15 as Rm or Rs, of which R15 as Rs is D43, run as log 13 says. -/
def Obligations.ShiftByRegister : Prop :=
  (∀ (n : Byte) (v : Word) (c : Bool),
    (n = 0 → ∀ ty, shiftReg ty n v c = { value := v, carry := c }) ∧
    (n ≠ 0 →
      (let r := shiftReg .lsl n v c
       r.value.toNat = v.toNat * 2 ^ n.toNat % 2 ^ 32 ∧ r.carry = decide (v.toNat * 2 ^ n.toNat / 2 ^ 32 % 2 = 1)) ∧
      (let r := shiftReg .lsr n v c
       r.value.toNat = v.toNat / 2 ^ n.toNat ∧ r.carry = decide (v.toNat / 2 ^ (n.toNat - 1) % 2 = 1)) ∧
      (let r := shiftReg .asr n v c
       r.value.toInt = v.toInt / 2 ^ n.toNat ∧ r.carry = decide (v.toInt / 2 ^ (n.toNat - 1) % 2 = 1)) ∧
      (let r := shiftReg .ror n v c
       (∀ j < 32, r.value.getLsbD j = v.getLsbD ((j + n.toNat) % 32)) ∧ r.carry = v.getLsbD ((n.toNat - 1) % 32)))) ∧
  (∀ (x : ShiftRegOperand) (k : CoreState), operandShiftReg x k =
    shiftReg x.type ((if x.rs = 15 then k.reg 15 + 4 else k.reg x.rs).extractLsb' 0 8)
      (if x.rm = 15 then k.reg 15 + 4 else k.reg x.rm) k.c)

/-- O39. R209, R211, R214, R215, R226 to R229; `logicalOp` names the eighteen constructors. -/
def Obligations.LogicalResult : Prop :=
  ∀ (i : Instr) (h : DpHead) (o : Operand2) (f : Word → Word → Word) (s : State), logicalOp i = some (h, o, f) →
    condPassed h.cond s.cur = true → ¬(h.rd = 15 ∧ h.s = 1) →
    let r := f (o.first h.rn s.cur) (o.second s.cur).value
    (dpResult h r (logicalFlags r (o.second s.cur).carry s) s).Completes i s

/-- O40. R210, R211, R216 to R221; `arithmeticOp` names the eighteen constructors. -/
def Obligations.ArithmeticResult : Prop :=
  ∀ (i : Instr) (h : DpHead) (o : Operand2) (f : Word → Word → Bool → Word × Flags) (s : State),
    arithmeticOp i = some (h, o, f) → condPassed h.cond s.cur = true → ¬(h.rd = 15 ∧ h.s = 1) →
    let r := f (o.first h.rn s.cur) (o.second s.cur).value s.cur.c
    (dpResult h r.1 r.2 s).Completes i s

/-- O41. R213, R222 to R225; `compareOp` names the twelve constructors. -/
def Obligations.CompareResult : Prop :=
  ∀ (i : Instr) (h : CmpHead) (o : Operand2) (f : Word → Shifted → State → Flags) (s : State),
    compareOp i = some (h, o, f) → condPassed h.cond s.cur = true →
    FlagsComplete i (f (o.first h.rn s.cur) (o.second s.cur) s) s

/-- O42. R341, R342; the jump of Rd = 15 is R250 read literally, where the published architecture is unpredictable (log 13). -/
def Obligations.MultiplyResult : Prop :=
  ∀ (i : Instr) (r : Result) (s : State), multiplyResult s i = some r → condPassed r.cond s.cur = true → r.Completes i s

/-- O43. R343 to R346, R365; the jump of R15 is R250 read literally (log 13). -/
def Obligations.LongMultiplyResult : Prop :=
  ∀ (i : Instr) (r : LongResult) (s : State), longOp s i = some r → condPassed r.cond s.cur = true → r.Completes i s

/-- O44. R350 to R364; the jump of Rd = 15 is R250 read literally (log 13). -/
def Obligations.DspResult : Prop :=
  ∀ (i : Instr) (r : Result) (s : State), dspOp s i = some r → s.running = .a9 → condPassed r.cond s.cur = true →
    r.Completes i s

/-- O45. R390, R391; `isUnknown` names the constructors. -/
def Obligations.UnknownInstructions : Prop :=
  ∀ (i : Instr) (s : State), isUnknown s.running i = true → (∀ cc, armCond i = some cc → condPassed cc s.cur = true) →
    exec i s = .next (s.setCur { s.cur with
      unknownLog := s.cur.unknownLog ++ [(if s.cur.t then s.x 15 - 4 else s.x 15 - 8, codeWord i)] })

/-- O46. R251, R260, R290; the user forms are R257. -/
def Obligations.TransferAddress : Prop :=
  (let expected : BitVec 1 → BitVec 1 → BitVec 1 → Word → Word → Address := fun p u w base off =>
    let idx := if u = 1 then base + off else base - off
    { addr := if p = 1 then idx else base, idx := idx, wb := p == 0 || w == 1 }
   (∀ (o : SdtImmOps) (k : CoreState), addrSdtImm o k = expected o.p o.u o.w (k.reg o.rn) (o.offset.setWidth 32)) ∧
   (∀ (o : SdtRegOps) (k : CoreState),
     addrSdtReg o k = expected o.p o.u o.w (k.reg o.rn) (shiftImm o.type o.amount (k.reg o.rm) k.c).value) ∧
   (∀ (o : SdtTImmOps) (k : CoreState), addrSdtTImm o k = expected 0 o.u 1 (k.reg o.rn) (o.offset.setWidth 32)) ∧
   (∀ (o : SdtTRegOps) (k : CoreState),
     addrSdtTReg o k = expected 0 o.u 1 (k.reg o.rn) (shiftImm o.type o.amount (k.reg o.rm) k.c).value) ∧
   (∀ (o : HdtImmOps) (k : CoreState),
     addrHdtImm o k = expected o.p o.u o.w (k.reg o.rn) ((o.immHi ++ o.immLo).setWidth 32)) ∧
   (∀ (o : HdtRegOps) (k : CoreState), addrHdtReg o k = expected o.p o.u o.w (k.reg o.rn) (k.reg o.rm))) ∧
  (∀ (base : Word) (n : Nat), let bytes := BitVec.ofNat 32 (4 * n)
    blockStart 0 1 base n = base ∧ blockStart 1 1 base n = base + 4 ∧ blockStart 0 0 base n = base - bytes + 4 ∧
    blockStart 1 0 base n = base - bytes ∧ blockWriteBack 1 base n = base + bytes ∧
    blockWriteBack 0 base n = base - bytes)

/-- O47. R251, R252, R255, R257 (D33), R262, R264, R265 and the Thumb loads of R435 to R457; `loadView` names the constructors. U6 and U10 run as log 13 says; R15 is LoadToPc, write-back to R15 BaseR15WriteBack. -/
def Obligations.SingleLoad : Prop :=
  ∀ (i : Instr) (v : LoadView) (s : State), loadView s.cur i = some v → condPassed v.cond s.cur = true → v.rd ≠ 15 →
    (v.a.wb = true → v.rn ≠ 15) →
    (∀ d u, memRead s.running v.a.addr v.width s = .next (d, u) →
      exec i s = .next ((u.wroteBack v.rn v.a).setX v.rd (v.value d))) ∧
    (∀ d, plainRead s.running v.a.addr v.width s = some d → ∃ t, exec i s = .next t ∧ t.x v.rd = v.value d ∧
      (v.a.wb = true → v.rn ≠ v.rd → t.x v.rn = v.a.idx) ∧ Frame (v.rd :: backRegs v.rn v.a) 0 s t) ∧
    (∀ e, memRead s.running v.a.addr v.width s = .fault e → exec i s = .fault e)

/-- O48. R251, R254, R256, R257 (D33), R263 and the Thumb stores of R436 to R456; `storeView` names the constructors. The stored R15 is U4 and log 28; the unpredictable forms are log 13; write-back to R15 is BaseR15WriteBack. -/
def Obligations.SingleStore : Prop :=
  ∀ (i : Instr) (v : StoreView) (s : State), storeView s i = some v → condPassed v.cond s.cur = true →
    (v.a.wb = true → v.rn ≠ 15) →
    (∀ u, memWrite s.running v.a.addr v.width v.value s = .next u → exec i s = .next (u.wroteBack v.rn v.a)) ∧
    (∀ b o, s.buf.wf → locate s.running (alignDown v.a.addr v.width) .write s = .buffer b o → ∃ t, exec i s = .next t ∧
      StoredAt b o v.width v.value s t ∧ (v.a.wb = true → t.x v.rn = v.a.idx) ∧ StoreFrame (backRegs v.rn v.a) s t) ∧
    (locate s.running (alignDown v.a.addr v.width) .write s = .ignore → ∃ t, exec i s = .next t ∧
      MemoryKept s t ∧ (v.a.wb = true → t.x v.rn = v.a.idx) ∧ StoreFrame (backRegs v.rn v.a) s t) ∧
    (∀ e, memWrite s.running v.a.addr v.width v.value s = .fault e → exec i s = .fault e)

/-- O49. R251 to R253 for LDR; R258 for the narrow loads (U5, D44), run as log 13 says; write-back to R15 is BaseR15WriteBack. -/
def Obligations.LoadToPc : Prop :=
  ∀ (i : Instr) (v : LoadView) (s : State) (d p0 p1 : Word) (u : State), loadView s.cur i = some v →
    condPassed v.cond s.cur = true → v.rd = 15 → (v.a.wb = true → v.rn ≠ 15) →
    memRead s.running v.a.addr v.width s = .next (d, u) →
    let thumb := if v.exchange then loadPcThumb (v.value d) s else s.cur.t
    let target := if v.exchange then loadPcTarget (v.value d) s else v.value d
    Fetches thumb target u p0 p1 →
    ∃ t, exec i s = .next t ∧ JumpedTo thumb target p0 p1 t ∧ (v.a.wb = true → t.x v.rn = v.a.idx) ∧
      JumpFrame (backRegs v.rn v.a) (if v.exchange then tMask else 0) u t

/-- O50. R250, R295, R297, R298 read literally (D44, logs 13, 14, 15). -/
def Obligations.BaseR15WriteBack : Prop :=
  (∀ (i : Instr) (v : LoadView) (s : State) (d : Word) (u : State), loadView s.cur i = some v →
    condPassed v.cond s.cur = true → v.a.wb = true → v.rn = 15 →
    memRead s.running v.a.addr v.width s = .next (d, u) →
    exec i s = Res.bind (branchTo v.a.idx u) fun x =>
      if v.rd = 15 then (if v.exchange then loadPc (v.value d) x else branchTo (v.value d) x)
      else .next (x.setX v.rd (v.value d))) ∧
  (∀ (i : Instr) (v : StoreView) (s u : State), storeView s i = some v → condPassed v.cond s.cur = true →
    v.a.wb = true → v.rn = 15 → memWrite s.running v.a.addr v.width v.value s = .next u →
    exec i s = branchTo v.a.idx u) ∧
  (∀ (o : BdtOps) (s u : State) (vs : List (BitVec 4 × Word)), condPassed o.cond s.cur = true → o.w = 1 → o.rn = 15 →
    o.list ≠ 0 → o.list.getLsbD 15 = false → let n := (listRegs o.list).length
    loadList (listRegs o.list) (blockStart o.p o.u (s.x 15) n) s = .next (vs, u) →
    exec (.ldm o) s = Res.bind (branchTo (blockWriteBack o.u (s.x 15) n) u) fun x =>
      .next (writeList (o.s == 1) vs x)) ∧
  (∀ (o : BdtOps) (s u : State), condPassed o.cond s.cur = true → o.w = 1 → o.rn = 15 → o.list ≠ 0 →
    let n := (listRegs o.list).length; let back := blockWriteBack o.u (s.x 15) n
    storeList ((listRegs o.list).map (stmWord o back s)) (blockStart o.p o.u (s.x 15) n) s = .next u →
    exec (.stm o) s = branchTo back u) ∧
  (∀ (o : BdtOps) (s u : State) (vs : List (BitVec 4 × Word)) (v : Word), condPassed o.cond s.cur = true → o.w = 1 →
    o.rn = 15 → o.list.getLsbD 15 = true → let n := (listRegs o.list).length; let back := blockWriteBack o.u (s.x 15) n
    loadList (listRegs o.list) (blockStart o.p o.u (s.x 15) n) s = .next (vs, u) → pcOf vs = some v →
    let x := writeList false vs u
    let late : State → Res State := fun y => if s.running = .a9 ∧ listRegs o.list = [15] then branchTo back y else .next y
    exec (.ldm o) s =
      if o.s = 1 then Res.bind (late x) (returnFromException v) else Res.bind (loadPc v x) late) ∧
  (∀ (o : BdtOps) (s : State), condPassed o.cond s.cur = true → o.w = 1 → o.rn = 15 → o.list = 0 →
    let start := blockStart o.p o.u (s.x 15) 16; let back := blockWriteBack o.u (s.x 15) 16
    (s.running = .a9 → exec (.ldm o) s = branchTo back s ∧ exec (.stm o) s = branchTo back s) ∧
    (s.running = .a7 → ∀ u, memWrite .a7 start .w32 (storedValue 15 s) s = .next u → exec (.stm o) s = branchTo back u) ∧
    (s.running = .a7 → ∀ d u, memRead .a7 start .w32 s = .next (d, u) →
      exec (.ldm o) s = Res.bind (branchTo back u) fun x =>
        if o.s = 1 then returnFromException d x else loadPc d x))

/-- O51. R266; an odd Rd and core A7 are UnknownInstructions. -/
def Obligations.DoubleTransfer : Prop :=
  ∀ (i : Instr) (ld : Bool) (cc rd rn : BitVec 4) (a : Address) (s : State), doubleView s.cur i = some (ld, cc, rd, rn, a) →
    s.running = .a9 → condPassed cc s.cur = true → rd.getLsbD 0 = false → (a.wb = true → rn ≠ 15) →
    (ld = true → ∀ lo hi u1 u2, memRead .a9 a.addr .w32 s = .next (lo, u1) →
      memRead .a9 (a.addr + 4) .w32 u1 = .next (hi, u2) →
      (rd ≠ 14 → exec i s = .next (((u2.wroteBack rn a).setX rd lo).setX (rd + 1) hi)) ∧
      (rd = 14 → exec i s = branchTo hi ((u2.wroteBack rn a).setX 14 lo))) ∧
    (ld = true → rd ≠ 14 → ∀ lo hi, plainRead .a9 a.addr .w32 s = some lo → plainRead .a9 (a.addr + 4) .w32 s = some hi →
      ∃ t, exec i s = .next t ∧ t.x rd = lo ∧ t.x (rd + 1) = hi ∧
        (a.wb = true → rn ≠ rd → rn ≠ rd + 1 → t.x rn = a.idx) ∧ Frame (rd :: (rd + 1) :: backRegs rn a) 0 s t) ∧
    (ld = false → ∀ u1 u2, memWrite .a9 a.addr .w32 (s.x rd) s = .next u1 →
      memWrite .a9 (a.addr + 4) .w32 (storedValue (rd + 1) s) u1 = .next u2 → exec i s = .next (u2.wroteBack rn a)) ∧
    (ld = false → s.buf.wf → ∀ b o b' o', locate .a9 (alignDown a.addr .w32) .write s = .buffer b o →
      locate .a9 (alignDown (a.addr + 4) .w32) .write s = .buffer b' o' →
      ∃ u t, exec i s = .next t ∧ StoredAt b o .w32 (s.x rd) s u ∧ StoredAt b' o' .w32 (storedValue (rd + 1) s) u t ∧
        (a.wb = true → t.x rn = a.idx) ∧ StoreFrame (backRegs rn a) s t)

/-- O52. R300, R301. -/
def Obligations.Swap : Prop :=
  ∀ (i : Instr) (o : SwpOps) (w : Width) (f : Word → Word) (s : State), swapView s i = some (o, w, f) →
    condPassed o.cond s.cur = true →
    (∀ d u1 u2, memRead s.running (s.x o.rn) w s = .next (d, u1) →
      memWrite s.running (s.x o.rn) w (s.x o.rm) u1 = .next u2 →
      (o.rd ≠ 15 → exec i s = .next (u2.setX o.rd (f d))) ∧ (o.rd = 15 → exec i s = branchTo (f d) u2)) ∧
    (∀ e, memRead s.running (s.x o.rn) w s = .fault e → exec i s = .fault e) ∧
    (∀ d u1 e, memRead s.running (s.x o.rn) w s = .next (d, u1) →
      memWrite s.running (s.x o.rn) w (s.x o.rm) u1 = .fault e → exec i s = .fault e) ∧
    (∀ d b q, s.buf.wf → plainRead s.running (s.x o.rn) w s = some d →
      locate s.running (alignDown (s.x o.rn) w) .write s = .buffer b q → o.rd ≠ 15 →
      ∃ t, exec i s = .next t ∧ t.x o.rd = f d ∧ StoredAt b q w (s.x o.rm) s t ∧ StoreFrame [o.rd] s t)

/-- O53. R290 to R292, R295, R296(b). -/
def Obligations.LoadMultiple : Prop :=
  (∀ (regs : List (BitVec 4)) (a : Word) (ws : List Word) (s : State), ws.length = regs.length → PlainWords a ws s →
    loadList regs a s = .next (regs.zip ws, s)) ∧
  (∀ (o : BdtOps) (vs : List (BitVec 4 × Word)) (s u : State), condPassed o.cond s.cur = true → o.list ≠ 0 →
    o.list.getLsbD 15 = false → (o.w = 1 → o.rn ≠ 15) →
    let n := (listRegs o.list).length
    let back := blockWriteBack o.u (s.x o.rn) n
    let written := ldmWritesBack s.running o.w o.rn o.list
    loadList (listRegs o.list) (blockStart o.p o.u (s.x o.rn) n) s = .next (vs, u) →
    ∃ t, exec (.ldm o) s = .next t ∧
      (o.s = 0 → LoadedList written o.rn back vs t ∧ Frame (baseRegs written o.rn ++ listRegs o.list) 0 u t) ∧
      (o.s = 1 → (∀ p ∈ vs, (p.1 = o.rn → written = false) → t.cur.userReg p.1 = p.2) ∧
        (written = true → o.list.getLsbD o.rn.toNat = false → t.x o.rn = back) ∧
        (s.cur.bank ≠ .usr → ∀ j, (j = 13 ∨ j = 14) → j ≠ o.rn → t.x j = u.x j) ∧
        t.cur.cpsr = u.cur.cpsr ∧ t.cur.spsr = u.cur.spsr ∧ PipeKept u t ∧ t.buf = u.buf ∧
        (∀ d, d ≠ s.running → t.core d = u.core d)))

/-- O54. R292, R294; the S form is R296(a), the base R295, its place beside R15 on core A9 log 14; write-back to R15 is BaseR15WriteBack. -/
def Obligations.LoadMultipleToPc : Prop :=
  ∀ (o : BdtOps) (vs : List (BitVec 4 × Word)) (v : Word) (s u : State), condPassed o.cond s.cur = true →
    o.list.getLsbD 15 = true →
    let n := (listRegs o.list).length
    let back := blockWriteBack o.u (s.x o.rn) n
    let written := ldmWritesBack s.running o.w o.rn o.list
    (written = true → o.rn ≠ 15) →
    loadList (listRegs o.list) (blockStart o.p o.u (s.x o.rn) n) s = .next (vs, u) → pcOf vs = some v →
    (o.s = 0 → ∀ p0 p1, Fetches (loadPcThumb v s) (loadPcTarget v s) u p0 p1 →
      ∃ t, exec (.ldm o) s = .next t ∧ JumpedTo (loadPcThumb v s) (loadPcTarget v s) p0 p1 t ∧
        LoadedList written o.rn back vs t ∧ JumpFrame (baseRegs written o.rn ++ listRegs o.list) tMask u t) ∧
    (o.s = 1 → ∃ t, exec (.ldm o) s = returnFromException v t ∧ LoadedList written o.rn back vs t ∧
      Frame (baseRegs written o.rn ++ (listRegs o.list).filter (· ≠ 15)) 0 u t)

/-- O55. R290, R293, R295 (D29), R296(b); the base in the S form is log 16, the stored R15 log 28; write-back to R15 is BaseR15WriteBack. -/
def Obligations.StoreMultiple : Prop :=
  (∀ (o : BdtOps) (s u : State), condPassed o.cond s.cur = true → o.list ≠ 0 → (o.w = 1 → o.rn ≠ 15) →
    let n := (listRegs o.list).length
    let back := blockWriteBack o.u (s.x o.rn) n
    storeList ((listRegs o.list).map (stmWord o back s)) (blockStart o.p o.u (s.x o.rn) n) s = .next u →
    exec (.stm o) s = .next (if o.w = 1 then u.setX o.rn back else u)) ∧
  (∀ (ws : List Word) (a : Word) (b : Buf) (q : Nat) (s : State), s.buf.wf →
    (∀ k < ws.length, locate s.running (alignDown (a + BitVec.ofNat 32 (4 * k)) .w32) .write s = .buffer b (q + 4 * k)) →
    ∃ t, storeList ws a s = .next t ∧ StoreFrame [] s t ∧
      (∀ k (h : k < ws.length) j, j < 4 → t.byteAt b (q + 4 * k + j) = byteOf ws[k] j) ∧
      ∀ b' o', (b' ≠ b ∨ o' < q ∨ q + 4 * ws.length ≤ o') → t.byteAt b' o' = s.byteAt b' o')

/-- O56. R297, R462 to R465; `emptyView` names the constructors. The Thumb forms and the address + 6 they store are logs 15 and 28; write-back to R15 is BaseR15WriteBack. -/
def Obligations.EmptyList : Prop :=
  ∀ (i : Instr) (v : EmptyView) (s : State), emptyView i = some v → condPassed v.cond s.cur = true →
    (v.w = 1 → v.rn ≠ 15) →
    let start := blockStart v.p v.u (s.x v.rn) 16
    let back := blockWriteBack v.u (s.x v.rn) 16
    let based : State → State := fun u => if v.w = 1 then u.setX v.rn back else u
    back = (if v.u = 1 then s.x v.rn + 64 else s.x v.rn - 64) ∧
    (s.running = .a9 → exec i s = .next (based s)) ∧
    (s.running = .a7 → v.load = false → ∀ u, memWrite .a7 start .w32 (storedValue 15 s) s = .next u →
      exec i s = .next (based u)) ∧
    (s.running = .a7 → v.load = true → ∀ d u, memRead .a7 start .w32 s = .next (d, u) →
      exec i s = if v.s = 1 then returnFromException d (based u) else branchTo d (based u))

/-- O57. R310 to R314, R433, R434, R470, R474, R481, R482; `armJump` and `thumbJump` name the constructors. -/
def Obligations.Jumps : Prop :=
  ∀ (i : Instr) (v : JumpView) (s : State), armJump s i = some v ∨ thumbJump s i = some v →
    condPassed v.cond s.cur = true → v.Completes i s

/-- O58. R385 to R388. The model's choice (log 17): the value of an unlisted register is a free value drawn with the counter `freeCount`. -/
def Obligations.Cp15Access : Prop :=
  ∀ (o : CoprocOps) (s : State), s.running = .a9 → condPassed o.cond s.cur = true →
    let control := o.crn = 1 ∧ o.crm = 0 ∧ o.op2 = 0
    let dtcm := o.crn = 9 ∧ o.crm = 1 ∧ o.op2 = 0
    let itcm := o.crn = 9 ∧ o.crm = 1 ∧ o.op2 = 1
    let wait := o.crn = 7 ∧ ((o.crm = 0 ∧ o.op2 = 4) ∨ (o.crm = 8 ∧ o.op2 = 2))
    (∀ v, (control ∧ v = s.ctl.cp15Control) ∨ (dtcm ∧ v = s.ctl.cp15Dtcm) ∨ (itcm ∧ v = s.ctl.cp15Itcm) →
      (o.rd ≠ 15 → ∃ t, exec (.mrc o) s = .next t ∧ t.x o.rd = v ∧ Frame [o.rd] 0 s t) ∧
      (o.rd = 15 → FlagsComplete (.mrc o)
        { n := v.getLsbD 31, z := v.getLsbD 30, c := v.getLsbD 29, v := v.getLsbD 28 } s)) ∧
    (¬control → ¬dtcm → ¬itcm → ∃ (v : Word) (f : Flags), exec (.mrc o) s = .next
      (let t : State := { s with freeCount := s.freeCount + 1 }
       if o.rd = 15 then t.setFlags f else t.setX o.rd v)) ∧
    (∀ ctl, (control ∧ ctl = { s.ctl with cp15Control := s.x o.rd }) ∨ (dtcm ∧ ctl = { s.ctl with cp15Dtcm := s.x o.rd }) ∨
        (itcm ∧ ctl = { s.ctl with cp15Itcm := s.x o.rd }) →
      ∃ t, exec (.mcr o) s = .next t ∧ t.ctl = ctl ∧ TablesFresh .a9 t ∧
        t = { s with ctl := ctl, a9 := { s.a9 with pageTable := t.a9.pageTable } }) ∧
    (wait → exec (.mcr o) s = .next { s with a9 := { s.a9 with halted := true } }) ∧
    (¬control → ¬dtcm → ¬itcm → ¬wait → exec (.mcr o) s = .next s)

/-- O59. R400 to R432, R458 to R461, R480; `thumbAluOp`, `thumbPlainOp` and `thumbCompareOp` name the constructors. -/
def Obligations.ThumbResults : Prop :=
  (∀ (i : Instr) (r : Result) (s : State), thumbAluOp s i = some r ∨ thumbPlainOp s i = some r → r.Completes i s) ∧
  (∀ (i : Instr) (f : Flags) (s : State), thumbCompareOp s i = some f → FlagsComplete i f s)

/-- O60. R462 to R465; an empty list is EmptyList. -/
def Obligations.ThumbBlockTransfer : Prop :=
  (∀ (o : TPushPopOps) (s u : State), ¬(o.rlist = 0 ∧ o.r = 0) →
    let sp := s.x 13 - BitVec.ofNat 32 (4 * (stackRegs o 14).length)
    storeList ((stackRegs o 14).map s.x) sp s = .next u → exec (.tPush o) s = .next (u.setX 13 sp)) ∧
  (∀ (o : TPushPopOps) (vs : List (BitVec 4 × Word)) (s u : State), ¬(o.rlist = 0 ∧ o.r = 0) →
    let sp := s.x 13 + BitVec.ofNat 32 (4 * (stackRegs o 15).length)
    loadList (stackRegs o 15) (s.x 13) s = .next (vs, u) →
    (o.r = 0 → ∃ t, exec (.tPop o) s = .next t ∧ LoadedList true 13 sp vs t ∧ Frame (13 :: stackRegs o 15) 0 u t) ∧
    (o.r = 1 → ∀ v p0 p1, pcOf vs = some v → Fetches (loadPcThumb v s) (loadPcTarget v s) u p0 p1 →
      ∃ t, exec (.tPop o) s = .next t ∧ JumpedTo (loadPcThumb v s) (loadPcTarget v s) p0 p1 t ∧
        LoadedList true 13 sp vs t ∧ JumpFrame (13 :: stackRegs o 15) tMask u t)) ∧
  (∀ (o : TBlockOps) (s u : State), o.rlist ≠ 0 →
    let rb := low o.rb
    let back := s.x rb + BitVec.ofNat 32 (4 * (lowRegs o.rlist).length)
    storeList ((lowRegs o.rlist).map fun i =>
        if i = rb ∧ s.running = .a7 ∧ o.rlist.toNat % 2 ^ o.rb.toNat ≠ 0 then back else s.x i) (s.x rb) s = .next u →
    exec (.tStmia o) s = .next (u.setX rb back)) ∧
  (∀ (o : TBlockOps) (vs : List (BitVec 4 × Word)) (s u : State), o.rlist ≠ 0 →
    let rb := low o.rb
    let written := !o.rlist.getLsbD o.rb.toNat
    loadList (lowRegs o.rlist) (s.x rb) s = .next (vs, u) →
    ∃ t, exec (.tLdmia o) s = .next t ∧
      LoadedList written rb (s.x rb + BitVec.ofNat 32 (4 * (lowRegs o.rlist).length)) vs t ∧
      Frame (baseRegs written rb ++ lowRegs o.rlist) 0 u t)
end

