-- ==== Sys2Proof/Laws/State.lean ====
section
/-! SUPPORT. One lemma per field per update, so that no later proof unfolds a record update; and how the updates of the cores
and of the live registers meet their readings. -/

namespace Sys2Proof.Machine

/-! The cores inside the state. -/

@[simp] theorem core_setCore_same (s : State) (c : CoreId) (k : CoreState) : (s.setCore c k).core c = k := by cases c <;> rfl
theorem core_setCore_ne (s : State) (c d : CoreId) (k : CoreState) (h : d ≠ c) : (s.setCore c k).core d = s.core d := by
  cases c <;> cases d <;> first | rfl | exact absurd rfl h
@[simp] theorem setCore_core (s : State) (c : CoreId) : s.setCore c (s.core c) = s := by cases c <;> rfl
@[simp] theorem setCore_setCore (s : State) (c : CoreId) (k l : CoreState) : (s.setCore c k).setCore c l = s.setCore c l := by
  cases c <;> rfl
@[simp] theorem setCore_par (s : State) (c : CoreId) (k : CoreState) : (s.setCore c k).par = s.par := by cases c <;> rfl
@[simp] theorem setCore_ctl (s : State) (c : CoreId) (k : CoreState) : (s.setCore c k).ctl = s.ctl := by cases c <;> rfl
@[simp] theorem setCore_buf (s : State) (c : CoreId) (k : CoreState) : (s.setCore c k).buf = s.buf := by cases c <;> rfl
@[simp] theorem setCore_fields (s : State) (c : CoreId) (k : CoreState) : (s.setCore c k).fields = s.fields := by cases c <;> rfl
@[simp] theorem setCore_currentTime (s : State) (c : CoreId) (k : CoreState) : (s.setCore c k).currentTime = s.currentTime := by cases c <;> rfl
@[simp] theorem setCore_queue (s : State) (c : CoreId) (k : CoreState) : (s.setCore c k).queue = s.queue := by cases c <;> rfl
@[simp] theorem setCore_events (s : State) (c : CoreId) (k : CoreState) : (s.setCore c k).events = s.events := by cases c <;> rfl
@[simp] theorem setCore_nextId (s : State) (c : CoreId) (k : CoreState) : (s.setCore c k).nextId = s.nextId := by cases c <;> rfl
@[simp] theorem setCore_fault (s : State) (c : CoreId) (k : CoreState) : (s.setCore c k).fault = s.fault := by cases c <;> rfl
@[simp] theorem setCore_running (s : State) (c : CoreId) (k : CoreState) : (s.setCore c k).running = s.running := by cases c <;> rfl
@[simp] theorem setCore_branched (s : State) (c : CoreId) (k : CoreState) : (s.setCore c k).branched = s.branched := by cases c <;> rfl
@[simp] theorem setCore_owner (s : State) (c : CoreId) (k : CoreState) : (s.setCore c k).owner = s.owner := by cases c <;> rfl
@[simp] theorem setCore_freeCount (s : State) (c : CoreId) (k : CoreState) : (s.setCore c k).freeCount = s.freeCount := by cases c <;> rfl

@[simp] theorem cur_setCur (s : State) (k : CoreState) : (s.setCur k).cur = k := by
  simp [State.cur, State.setCur]
@[simp] theorem setCur_cur (s : State) : s.setCur s.cur = s := by simp [State.cur, State.setCur]
@[simp] theorem setCur_setCur (s : State) (k l : CoreState) : (s.setCur k).setCur l = s.setCur l := by
  simp [State.setCur]
theorem core_setCur_ne (s : State) (k : CoreState) (c : CoreId) (h : c ≠ s.running) : (s.setCur k).core c = s.core c :=
  core_setCore_ne s s.running c k h
theorem core_running (s : State) : s.core s.running = s.cur := rfl
@[simp] theorem setCur_par (s : State) (k : CoreState) : (s.setCur k).par = s.par := by simp [State.setCur]
@[simp] theorem setCur_ctl (s : State) (k : CoreState) : (s.setCur k).ctl = s.ctl := by simp [State.setCur]
@[simp] theorem setCur_buf (s : State) (k : CoreState) : (s.setCur k).buf = s.buf := by simp [State.setCur]
@[simp] theorem setCur_fields (s : State) (k : CoreState) : (s.setCur k).fields = s.fields := by simp [State.setCur]
@[simp] theorem setCur_currentTime (s : State) (k : CoreState) : (s.setCur k).currentTime = s.currentTime := by simp [State.setCur]
@[simp] theorem setCur_queue (s : State) (k : CoreState) : (s.setCur k).queue = s.queue := by simp [State.setCur]
@[simp] theorem setCur_events (s : State) (k : CoreState) : (s.setCur k).events = s.events := by simp [State.setCur]
@[simp] theorem setCur_nextId (s : State) (k : CoreState) : (s.setCur k).nextId = s.nextId := by simp [State.setCur]
@[simp] theorem setCur_fault (s : State) (k : CoreState) : (s.setCur k).fault = s.fault := by simp [State.setCur]
@[simp] theorem setCur_running (s : State) (k : CoreState) : (s.setCur k).running = s.running := by simp [State.setCur]
@[simp] theorem setCur_branched (s : State) (k : CoreState) : (s.setCur k).branched = s.branched := by simp [State.setCur]
@[simp] theorem setCur_owner (s : State) (k : CoreState) : (s.setCur k).owner = s.owner := by simp [State.setCur]
@[simp] theorem setCur_freeCount (s : State) (k : CoreState) : (s.setCur k).freeCount = s.freeCount := by simp [State.setCur]

/-! The live registers. -/

@[simp] theorem reg_setReg_same (k : CoreState) (i : BitVec 4) (v : Word) : (k.setReg i v).reg i = v := by
  simp [CoreState.reg, CoreState.setReg, Vector.get_eq_getElem]
theorem reg_setReg_ne (k : CoreState) (i j : BitVec 4) (v : Word) (h : j ≠ i) : (k.setReg i v).reg j = k.reg j := by
  have : i.toNat ≠ j.toNat := fun e => h (BitVec.eq_of_toNat_eq e.symm)
  simp [CoreState.reg, CoreState.setReg, Vector.get_eq_getElem, this]
theorem reg_setReg (k : CoreState) (i j : BitVec 4) (v : Word) :
    (k.setReg i v).reg j = if j = i then v else k.reg j := by
  by_cases h : j = i
  · subst h; simp
  · simp [h, reg_setReg_ne k i j v h]
@[simp] theorem setReg_bankR13 (k : CoreState) (i : BitVec 4) (v : Word) : (k.setReg i v).bankR13 = k.bankR13 := rfl
@[simp] theorem setReg_bankR14 (k : CoreState) (i : BitVec 4) (v : Word) : (k.setReg i v).bankR14 = k.bankR14 := rfl
@[simp] theorem setReg_fiqR8 (k : CoreState) (i : BitVec 4) (v : Word) : (k.setReg i v).fiqR8 = k.fiqR8 := rfl
@[simp] theorem setReg_nonfiqR8 (k : CoreState) (i : BitVec 4) (v : Word) : (k.setReg i v).nonfiqR8 = k.nonfiqR8 := rfl
@[simp] theorem setReg_cpsr (k : CoreState) (i : BitVec 4) (v : Word) : (k.setReg i v).cpsr = k.cpsr := rfl
@[simp] theorem setReg_spsr (k : CoreState) (i : BitVec 4) (v : Word) : (k.setReg i v).spsr = k.spsr := rfl
@[simp] theorem setReg_pipe0 (k : CoreState) (i : BitVec 4) (v : Word) : (k.setReg i v).pipe0 = k.pipe0 := rfl
@[simp] theorem setReg_pipe1 (k : CoreState) (i : BitVec 4) (v : Word) : (k.setReg i v).pipe1 = k.pipe1 := rfl
@[simp] theorem setReg_halted (k : CoreState) (i : BitVec 4) (v : Word) : (k.setReg i v).halted = k.halted := rfl
@[simp] theorem setReg_timestamp (k : CoreState) (i : BitVec 4) (v : Word) : (k.setReg i v).timestamp = k.timestamp := rfl
@[simp] theorem setReg_ime (k : CoreState) (i : BitVec 4) (v : Word) : (k.setReg i v).ime = k.ime := rfl
@[simp] theorem setReg_ie (k : CoreState) (i : BitVec 4) (v : Word) : (k.setReg i v).ie = k.ie := rfl
@[simp] theorem setReg_ifl (k : CoreState) (i : BitVec 4) (v : Word) : (k.setReg i v).ifl = k.ifl := rfl
@[simp] theorem setReg_irqLatch (k : CoreState) (i : BitVec 4) (v : Word) : (k.setReg i v).irqLatch = k.irqLatch := rfl
@[simp] theorem setReg_booted (k : CoreState) (i : BitVec 4) (v : Word) : (k.setReg i v).booted = k.booted := rfl
@[simp] theorem setReg_unknownLog (k : CoreState) (i : BitVec 4) (v : Word) : (k.setReg i v).unknownLog = k.unknownLog := rfl
@[simp] theorem setReg_pageTable (k : CoreState) (i : BitVec 4) (v : Word) : (k.setReg i v).pageTable = k.pageTable := rfl
@[simp] theorem setReg_mmio (k : CoreState) (i : BitVec 4) (v : Word) : (k.setReg i v).mmio = k.mmio := rfl
@[simp] theorem setT_r (k : CoreState) (b : Bool) : (k.setT b).r = k.r := rfl
@[simp] theorem setT_bankR13 (k : CoreState) (b : Bool) : (k.setT b).bankR13 = k.bankR13 := rfl
@[simp] theorem setT_bankR14 (k : CoreState) (b : Bool) : (k.setT b).bankR14 = k.bankR14 := rfl
@[simp] theorem setT_fiqR8 (k : CoreState) (b : Bool) : (k.setT b).fiqR8 = k.fiqR8 := rfl
@[simp] theorem setT_nonfiqR8 (k : CoreState) (b : Bool) : (k.setT b).nonfiqR8 = k.nonfiqR8 := rfl
@[simp] theorem setT_spsr (k : CoreState) (b : Bool) : (k.setT b).spsr = k.spsr := rfl
@[simp] theorem setT_pipe0 (k : CoreState) (b : Bool) : (k.setT b).pipe0 = k.pipe0 := rfl
@[simp] theorem setT_pipe1 (k : CoreState) (b : Bool) : (k.setT b).pipe1 = k.pipe1 := rfl
@[simp] theorem setT_halted (k : CoreState) (b : Bool) : (k.setT b).halted = k.halted := rfl
@[simp] theorem setT_timestamp (k : CoreState) (b : Bool) : (k.setT b).timestamp = k.timestamp := rfl
@[simp] theorem setT_ime (k : CoreState) (b : Bool) : (k.setT b).ime = k.ime := rfl
@[simp] theorem setT_ie (k : CoreState) (b : Bool) : (k.setT b).ie = k.ie := rfl
@[simp] theorem setT_ifl (k : CoreState) (b : Bool) : (k.setT b).ifl = k.ifl := rfl
@[simp] theorem setT_irqLatch (k : CoreState) (b : Bool) : (k.setT b).irqLatch = k.irqLatch := rfl
@[simp] theorem setT_booted (k : CoreState) (b : Bool) : (k.setT b).booted = k.booted := rfl
@[simp] theorem setT_unknownLog (k : CoreState) (b : Bool) : (k.setT b).unknownLog = k.unknownLog := rfl
@[simp] theorem setT_pageTable (k : CoreState) (b : Bool) : (k.setT b).pageTable = k.pageTable := rfl
@[simp] theorem setT_mmio (k : CoreState) (b : Bool) : (k.setT b).mmio = k.mmio := rfl
@[simp] theorem setFlagsCore_r (k : CoreState) (f : Flags) : (k.setFlags f).r = k.r := rfl
@[simp] theorem setFlagsCore_bankR13 (k : CoreState) (f : Flags) : (k.setFlags f).bankR13 = k.bankR13 := rfl
@[simp] theorem setFlagsCore_bankR14 (k : CoreState) (f : Flags) : (k.setFlags f).bankR14 = k.bankR14 := rfl
@[simp] theorem setFlagsCore_fiqR8 (k : CoreState) (f : Flags) : (k.setFlags f).fiqR8 = k.fiqR8 := rfl
@[simp] theorem setFlagsCore_nonfiqR8 (k : CoreState) (f : Flags) : (k.setFlags f).nonfiqR8 = k.nonfiqR8 := rfl
@[simp] theorem setFlagsCore_spsr (k : CoreState) (f : Flags) : (k.setFlags f).spsr = k.spsr := rfl
@[simp] theorem setFlagsCore_pipe0 (k : CoreState) (f : Flags) : (k.setFlags f).pipe0 = k.pipe0 := rfl
@[simp] theorem setFlagsCore_pipe1 (k : CoreState) (f : Flags) : (k.setFlags f).pipe1 = k.pipe1 := rfl
@[simp] theorem setFlagsCore_halted (k : CoreState) (f : Flags) : (k.setFlags f).halted = k.halted := rfl
@[simp] theorem setFlagsCore_timestamp (k : CoreState) (f : Flags) : (k.setFlags f).timestamp = k.timestamp := rfl
@[simp] theorem setFlagsCore_ime (k : CoreState) (f : Flags) : (k.setFlags f).ime = k.ime := rfl
@[simp] theorem setFlagsCore_ie (k : CoreState) (f : Flags) : (k.setFlags f).ie = k.ie := rfl
@[simp] theorem setFlagsCore_ifl (k : CoreState) (f : Flags) : (k.setFlags f).ifl = k.ifl := rfl
@[simp] theorem setFlagsCore_irqLatch (k : CoreState) (f : Flags) : (k.setFlags f).irqLatch = k.irqLatch := rfl
@[simp] theorem setFlagsCore_booted (k : CoreState) (f : Flags) : (k.setFlags f).booted = k.booted := rfl
@[simp] theorem setFlagsCore_unknownLog (k : CoreState) (f : Flags) : (k.setFlags f).unknownLog = k.unknownLog := rfl
@[simp] theorem setFlagsCore_pageTable (k : CoreState) (f : Flags) : (k.setFlags f).pageTable = k.pageTable := rfl
@[simp] theorem setFlagsCore_mmio (k : CoreState) (f : Flags) : (k.setFlags f).mmio = k.mmio := rfl
@[simp] theorem setMode_r (k : CoreState) (m : BitVec 5) : (k.setMode m).r = k.r := rfl
@[simp] theorem setMode_bankR13 (k : CoreState) (m : BitVec 5) : (k.setMode m).bankR13 = k.bankR13 := rfl
@[simp] theorem setMode_bankR14 (k : CoreState) (m : BitVec 5) : (k.setMode m).bankR14 = k.bankR14 := rfl
@[simp] theorem setMode_fiqR8 (k : CoreState) (m : BitVec 5) : (k.setMode m).fiqR8 = k.fiqR8 := rfl
@[simp] theorem setMode_nonfiqR8 (k : CoreState) (m : BitVec 5) : (k.setMode m).nonfiqR8 = k.nonfiqR8 := rfl
@[simp] theorem setMode_spsr (k : CoreState) (m : BitVec 5) : (k.setMode m).spsr = k.spsr := rfl
@[simp] theorem setMode_pipe0 (k : CoreState) (m : BitVec 5) : (k.setMode m).pipe0 = k.pipe0 := rfl
@[simp] theorem setMode_pipe1 (k : CoreState) (m : BitVec 5) : (k.setMode m).pipe1 = k.pipe1 := rfl
@[simp] theorem setMode_halted (k : CoreState) (m : BitVec 5) : (k.setMode m).halted = k.halted := rfl
@[simp] theorem setMode_timestamp (k : CoreState) (m : BitVec 5) : (k.setMode m).timestamp = k.timestamp := rfl
@[simp] theorem setMode_ime (k : CoreState) (m : BitVec 5) : (k.setMode m).ime = k.ime := rfl
@[simp] theorem setMode_ie (k : CoreState) (m : BitVec 5) : (k.setMode m).ie = k.ie := rfl
@[simp] theorem setMode_ifl (k : CoreState) (m : BitVec 5) : (k.setMode m).ifl = k.ifl := rfl
@[simp] theorem setMode_irqLatch (k : CoreState) (m : BitVec 5) : (k.setMode m).irqLatch = k.irqLatch := rfl
@[simp] theorem setMode_booted (k : CoreState) (m : BitVec 5) : (k.setMode m).booted = k.booted := rfl
@[simp] theorem setMode_unknownLog (k : CoreState) (m : BitVec 5) : (k.setMode m).unknownLog = k.unknownLog := rfl
@[simp] theorem setMode_pageTable (k : CoreState) (m : BitVec 5) : (k.setMode m).pageTable = k.pageTable := rfl
@[simp] theorem setMode_mmio (k : CoreState) (m : BitVec 5) : (k.setMode m).mmio = k.mmio := rfl
@[simp] theorem updateLatch_r (k : CoreState)  : (k.updateLatch).r = k.r := rfl
@[simp] theorem updateLatch_bankR13 (k : CoreState)  : (k.updateLatch).bankR13 = k.bankR13 := rfl
@[simp] theorem updateLatch_bankR14 (k : CoreState)  : (k.updateLatch).bankR14 = k.bankR14 := rfl
@[simp] theorem updateLatch_fiqR8 (k : CoreState)  : (k.updateLatch).fiqR8 = k.fiqR8 := rfl
@[simp] theorem updateLatch_nonfiqR8 (k : CoreState)  : (k.updateLatch).nonfiqR8 = k.nonfiqR8 := rfl
@[simp] theorem updateLatch_cpsr (k : CoreState)  : (k.updateLatch).cpsr = k.cpsr := rfl
@[simp] theorem updateLatch_spsr (k : CoreState)  : (k.updateLatch).spsr = k.spsr := rfl
@[simp] theorem updateLatch_pipe0 (k : CoreState)  : (k.updateLatch).pipe0 = k.pipe0 := rfl
@[simp] theorem updateLatch_pipe1 (k : CoreState)  : (k.updateLatch).pipe1 = k.pipe1 := rfl
@[simp] theorem updateLatch_halted (k : CoreState)  : (k.updateLatch).halted = k.halted := rfl
@[simp] theorem updateLatch_timestamp (k : CoreState)  : (k.updateLatch).timestamp = k.timestamp := rfl
@[simp] theorem updateLatch_ime (k : CoreState)  : (k.updateLatch).ime = k.ime := rfl
@[simp] theorem updateLatch_ie (k : CoreState)  : (k.updateLatch).ie = k.ie := rfl
@[simp] theorem updateLatch_ifl (k : CoreState)  : (k.updateLatch).ifl = k.ifl := rfl
@[simp] theorem updateLatch_booted (k : CoreState)  : (k.updateLatch).booted = k.booted := rfl
@[simp] theorem updateLatch_unknownLog (k : CoreState)  : (k.updateLatch).unknownLog = k.unknownLog := rfl
@[simp] theorem updateLatch_pageTable (k : CoreState)  : (k.updateLatch).pageTable = k.pageTable := rfl
@[simp] theorem updateLatch_mmio (k : CoreState)  : (k.updateLatch).mmio = k.mmio := rfl
@[simp] theorem reg_setT (k : CoreState) (b : Bool) (i : BitVec 4) : (k.setT b).reg i = k.reg i := rfl
@[simp] theorem reg_setFlagsCore (k : CoreState) (f : Flags) (i : BitVec 4) : (k.setFlags f).reg i = k.reg i := rfl
@[simp] theorem reg_setMode (k : CoreState) (m : BitVec 5) (i : BitVec 4) : (k.setMode m).reg i = k.reg i := rfl
@[simp] theorem reg_updateLatch (k : CoreState)  (i : BitVec 4) : (k.updateLatch).reg i = k.reg i := rfl

/-! The executing core's registers, pipeline and flags through the state. -/

@[simp] theorem x_setX_same (s : State) (i : BitVec 4) (v : Word) : (s.setX i v).x i = v := by simp [State.x, State.setX]
theorem x_setX (s : State) (i j : BitVec 4) (v : Word) : (s.setX i v).x j = if j = i then v else s.x j := by
  simp [State.x, State.setX, reg_setReg]
theorem x_setX_ne (s : State) (i j : BitVec 4) (v : Word) (h : j ≠ i) : (s.setX i v).x j = s.x j := by simp [x_setX, h]
@[simp] theorem cur_setX (s : State) (i : BitVec 4) (v : Word) : (s.setX i v).cur = s.cur.setReg i v := by simp [State.setX]
@[simp] theorem cur_setPipe (s : State) (p q : Word) : (s.setPipe p q).cur = { s.cur with pipe0 := p, pipe1 := q } := by
  simp [State.setPipe]
@[simp] theorem x_setPipe (s : State) (p q : Word) (i : BitVec 4) : (s.setPipe p q).x i = s.x i := by simp [State.x, CoreState.reg]
@[simp] theorem x_setFlags (s : State) (f : Flags) (i : BitVec 4) : (s.setFlags f).x i = s.x i := by
  simp [State.x, State.setFlags]
@[simp] theorem cur_setFlags (s : State) (f : Flags) : (s.setFlags f).cur = s.cur.setFlags f := by simp [State.setFlags]
@[simp] theorem cur_setCells (s : State) (b : Buf) (m : List Host.Cell) : (s.setCells b m).cur = s.cur := rfl
@[simp] theorem core_setCells (s : State) (b : Buf) (m : List Host.Cell) (c : CoreId) : (s.setCells b m).core c = s.core c := by
  cases c <;> rfl
@[simp] theorem cur_setField (s : State) (f : Nat) (v : Dword) : (s.setField f v).cur = s.cur := rfl
@[simp] theorem core_setField (s : State) (f : Nat) (v : Dword) (c : CoreId) : (s.setField f v).core c = s.core c := by
  cases c <;> rfl
@[simp] theorem setX_par (s : State) (i : BitVec 4) (v : Word) : (s.setX i v).par = s.par := by simp [State.setX]
@[simp] theorem setPipe_par (s : State) (p q : Word) : (s.setPipe p q).par = s.par := by simp [State.setPipe]
@[simp] theorem setFlags_par (s : State) (f : Flags) : (s.setFlags f).par = s.par := by simp [State.setFlags]
@[simp] theorem setCells_par (s : State) (b : Buf) (m : List Host.Cell) : (s.setCells b m).par = s.par := rfl
@[simp] theorem setField_par (s : State) (f : Nat) (v : Dword) : (s.setField f v).par = s.par := rfl
@[simp] theorem orQ_par (s : State) (b : Bool) : (s.orQ b).par = s.par := by cases b <;> simp [State.orQ]
@[simp] theorem setX_ctl (s : State) (i : BitVec 4) (v : Word) : (s.setX i v).ctl = s.ctl := by simp [State.setX]
@[simp] theorem setPipe_ctl (s : State) (p q : Word) : (s.setPipe p q).ctl = s.ctl := by simp [State.setPipe]
@[simp] theorem setFlags_ctl (s : State) (f : Flags) : (s.setFlags f).ctl = s.ctl := by simp [State.setFlags]
@[simp] theorem setCells_ctl (s : State) (b : Buf) (m : List Host.Cell) : (s.setCells b m).ctl = s.ctl := rfl
@[simp] theorem setField_ctl (s : State) (f : Nat) (v : Dword) : (s.setField f v).ctl = s.ctl := rfl
@[simp] theorem orQ_ctl (s : State) (b : Bool) : (s.orQ b).ctl = s.ctl := by cases b <;> simp [State.orQ]
@[simp] theorem setX_buf (s : State) (i : BitVec 4) (v : Word) : (s.setX i v).buf = s.buf := by simp [State.setX]
@[simp] theorem setPipe_buf (s : State) (p q : Word) : (s.setPipe p q).buf = s.buf := by simp [State.setPipe]
@[simp] theorem setFlags_buf (s : State) (f : Flags) : (s.setFlags f).buf = s.buf := by simp [State.setFlags]
@[simp] theorem setField_buf (s : State) (f : Nat) (v : Dword) : (s.setField f v).buf = s.buf := rfl
@[simp] theorem orQ_buf (s : State) (b : Bool) : (s.orQ b).buf = s.buf := by cases b <;> simp [State.orQ]
@[simp] theorem setX_fields (s : State) (i : BitVec 4) (v : Word) : (s.setX i v).fields = s.fields := by simp [State.setX]
@[simp] theorem setPipe_fields (s : State) (p q : Word) : (s.setPipe p q).fields = s.fields := by simp [State.setPipe]
@[simp] theorem setFlags_fields (s : State) (f : Flags) : (s.setFlags f).fields = s.fields := by simp [State.setFlags]
@[simp] theorem setCells_fields (s : State) (b : Buf) (m : List Host.Cell) : (s.setCells b m).fields = s.fields := rfl
@[simp] theorem orQ_fields (s : State) (b : Bool) : (s.orQ b).fields = s.fields := by cases b <;> simp [State.orQ]
@[simp] theorem setX_currentTime (s : State) (i : BitVec 4) (v : Word) : (s.setX i v).currentTime = s.currentTime := by simp [State.setX]
@[simp] theorem setPipe_currentTime (s : State) (p q : Word) : (s.setPipe p q).currentTime = s.currentTime := by simp [State.setPipe]
@[simp] theorem setFlags_currentTime (s : State) (f : Flags) : (s.setFlags f).currentTime = s.currentTime := by simp [State.setFlags]
@[simp] theorem setCells_currentTime (s : State) (b : Buf) (m : List Host.Cell) : (s.setCells b m).currentTime = s.currentTime := rfl
@[simp] theorem setField_currentTime (s : State) (f : Nat) (v : Dword) : (s.setField f v).currentTime = s.currentTime := rfl
@[simp] theorem orQ_currentTime (s : State) (b : Bool) : (s.orQ b).currentTime = s.currentTime := by cases b <;> simp [State.orQ]
@[simp] theorem setX_queue (s : State) (i : BitVec 4) (v : Word) : (s.setX i v).queue = s.queue := by simp [State.setX]
@[simp] theorem setPipe_queue (s : State) (p q : Word) : (s.setPipe p q).queue = s.queue := by simp [State.setPipe]
@[simp] theorem setFlags_queue (s : State) (f : Flags) : (s.setFlags f).queue = s.queue := by simp [State.setFlags]
@[simp] theorem setCells_queue (s : State) (b : Buf) (m : List Host.Cell) : (s.setCells b m).queue = s.queue := rfl
@[simp] theorem setField_queue (s : State) (f : Nat) (v : Dword) : (s.setField f v).queue = s.queue := rfl
@[simp] theorem orQ_queue (s : State) (b : Bool) : (s.orQ b).queue = s.queue := by cases b <;> simp [State.orQ]
@[simp] theorem setX_events (s : State) (i : BitVec 4) (v : Word) : (s.setX i v).events = s.events := by simp [State.setX]
@[simp] theorem setPipe_events (s : State) (p q : Word) : (s.setPipe p q).events = s.events := by simp [State.setPipe]
@[simp] theorem setFlags_events (s : State) (f : Flags) : (s.setFlags f).events = s.events := by simp [State.setFlags]
@[simp] theorem setCells_events (s : State) (b : Buf) (m : List Host.Cell) : (s.setCells b m).events = s.events := rfl
@[simp] theorem setField_events (s : State) (f : Nat) (v : Dword) : (s.setField f v).events = s.events := rfl
@[simp] theorem orQ_events (s : State) (b : Bool) : (s.orQ b).events = s.events := by cases b <;> simp [State.orQ]
@[simp] theorem setX_nextId (s : State) (i : BitVec 4) (v : Word) : (s.setX i v).nextId = s.nextId := by simp [State.setX]
@[simp] theorem setPipe_nextId (s : State) (p q : Word) : (s.setPipe p q).nextId = s.nextId := by simp [State.setPipe]
@[simp] theorem setFlags_nextId (s : State) (f : Flags) : (s.setFlags f).nextId = s.nextId := by simp [State.setFlags]
@[simp] theorem setCells_nextId (s : State) (b : Buf) (m : List Host.Cell) : (s.setCells b m).nextId = s.nextId := rfl
@[simp] theorem setField_nextId (s : State) (f : Nat) (v : Dword) : (s.setField f v).nextId = s.nextId := rfl
@[simp] theorem orQ_nextId (s : State) (b : Bool) : (s.orQ b).nextId = s.nextId := by cases b <;> simp [State.orQ]
@[simp] theorem setX_fault (s : State) (i : BitVec 4) (v : Word) : (s.setX i v).fault = s.fault := by simp [State.setX]
@[simp] theorem setPipe_fault (s : State) (p q : Word) : (s.setPipe p q).fault = s.fault := by simp [State.setPipe]
@[simp] theorem setFlags_fault (s : State) (f : Flags) : (s.setFlags f).fault = s.fault := by simp [State.setFlags]
@[simp] theorem setCells_fault (s : State) (b : Buf) (m : List Host.Cell) : (s.setCells b m).fault = s.fault := rfl
@[simp] theorem setField_fault (s : State) (f : Nat) (v : Dword) : (s.setField f v).fault = s.fault := rfl
@[simp] theorem orQ_fault (s : State) (b : Bool) : (s.orQ b).fault = s.fault := by cases b <;> simp [State.orQ]
@[simp] theorem setX_running (s : State) (i : BitVec 4) (v : Word) : (s.setX i v).running = s.running := by simp [State.setX]
@[simp] theorem setPipe_running (s : State) (p q : Word) : (s.setPipe p q).running = s.running := by simp [State.setPipe]
@[simp] theorem setFlags_running (s : State) (f : Flags) : (s.setFlags f).running = s.running := by simp [State.setFlags]
@[simp] theorem setCells_running (s : State) (b : Buf) (m : List Host.Cell) : (s.setCells b m).running = s.running := rfl
@[simp] theorem setField_running (s : State) (f : Nat) (v : Dword) : (s.setField f v).running = s.running := rfl
@[simp] theorem orQ_running (s : State) (b : Bool) : (s.orQ b).running = s.running := by cases b <;> simp [State.orQ]
@[simp] theorem setX_branched (s : State) (i : BitVec 4) (v : Word) : (s.setX i v).branched = s.branched := by simp [State.setX]
@[simp] theorem setPipe_branched (s : State) (p q : Word) : (s.setPipe p q).branched = s.branched := by simp [State.setPipe]
@[simp] theorem setFlags_branched (s : State) (f : Flags) : (s.setFlags f).branched = s.branched := by simp [State.setFlags]
@[simp] theorem setCells_branched (s : State) (b : Buf) (m : List Host.Cell) : (s.setCells b m).branched = s.branched := rfl
@[simp] theorem setField_branched (s : State) (f : Nat) (v : Dword) : (s.setField f v).branched = s.branched := rfl
@[simp] theorem orQ_branched (s : State) (b : Bool) : (s.orQ b).branched = s.branched := by cases b <;> simp [State.orQ]
@[simp] theorem setX_owner (s : State) (i : BitVec 4) (v : Word) : (s.setX i v).owner = s.owner := by simp [State.setX]
@[simp] theorem setPipe_owner (s : State) (p q : Word) : (s.setPipe p q).owner = s.owner := by simp [State.setPipe]
@[simp] theorem setFlags_owner (s : State) (f : Flags) : (s.setFlags f).owner = s.owner := by simp [State.setFlags]
@[simp] theorem setCells_owner (s : State) (b : Buf) (m : List Host.Cell) : (s.setCells b m).owner = s.owner := rfl
@[simp] theorem setField_owner (s : State) (f : Nat) (v : Dword) : (s.setField f v).owner = s.owner := rfl
@[simp] theorem orQ_owner (s : State) (b : Bool) : (s.orQ b).owner = s.owner := by cases b <;> simp [State.orQ]
@[simp] theorem setX_freeCount (s : State) (i : BitVec 4) (v : Word) : (s.setX i v).freeCount = s.freeCount := by simp [State.setX]
@[simp] theorem setPipe_freeCount (s : State) (p q : Word) : (s.setPipe p q).freeCount = s.freeCount := by simp [State.setPipe]
@[simp] theorem setFlags_freeCount (s : State) (f : Flags) : (s.setFlags f).freeCount = s.freeCount := by simp [State.setFlags]
@[simp] theorem setCells_freeCount (s : State) (b : Buf) (m : List Host.Cell) : (s.setCells b m).freeCount = s.freeCount := rfl
@[simp] theorem setField_freeCount (s : State) (f : Nat) (v : Dword) : (s.setField f v).freeCount = s.freeCount := rfl
@[simp] theorem orQ_freeCount (s : State) (b : Bool) : (s.orQ b).freeCount = s.freeCount := by cases b <;> simp [State.orQ]
@[simp] theorem x_orQ (s : State) (b : Bool) (i : BitVec 4) : (s.orQ b).x i = s.x i := by
  cases b <;> simp [State.orQ, State.x, CoreState.reg]
@[simp] theorem core_setX_ne (s : State) (i : BitVec 4) (v : Word) (c : CoreId) (h : c ≠ s.running) :
    (s.setX i v).core c = s.core c := core_setCur_ne s _ c h
@[simp] theorem core_setPipe_ne (s : State) (p q : Word) (c : CoreId) (h : c ≠ s.running) :
    (s.setPipe p q).core c = s.core c := core_setCur_ne s _ c h
@[simp] theorem core_setFlags_ne (s : State) (f : Flags) (c : CoreId) (h : c ≠ s.running) :
    (s.setFlags f).core c = s.core c := core_setCur_ne s _ c h
theorem setX_setX_same (s : State) (i : BitVec 4) (v w : Word) : (s.setX i v).setX i w = s.setX i w := by
  simp [State.setX, CoreState.setReg]

/-! Sequencing. -/

@[simp] theorem bind_next {α β : Type} (a : α) (f : α → Res β) : Res.bind (.next a) f = f a := rfl
@[simp] theorem bind_fault {α β : Type} (e : Fault) (f : α → Res β) : Res.bind (.fault e) f = .fault e := rfl
@[simp] theorem bind_refused {α β : Type} (e : Refusal) (f : α → Res β) : Res.bind (.refused e) f = .refused e := rfl
/-- A sequence answers next exactly when its first part does and its second part does from there. -/
theorem bind_eq_next {α β : Type} {x : Res α} {f : α → Res β} {b : β} :
    Res.bind x f = .next b ↔ ∃ a, x = .next a ∧ f a = .next b := by
  cases x <;> simp [Res.bind]

/-! Bits of a word. -/

/-- A set bit reads as set; every other bit is as it was. -/
theorem getLsbD_setBit (v : Word) (i j : Nat) (b : Bool) (hi : i < 32) :
    (setBit v i b).getLsbD j = if j = i then b else v.getLsbD j := by
  unfold setBit
  by_cases hj : j < 32
  · by_cases h : j = i
    · subst h; cases b <;> simp [hj]
    · by_cases hlt : j < i
      · cases b <;> simp [hj, h, hlt]
      · have : j - i ≠ 0 := by omega
        cases b <;> simp [hj, h, this, show ¬ j < i from hlt]
  · have : j ≠ i := by omega
    cases b <;> simp [this, BitVec.getLsbD_of_ge, Nat.le_of_not_lt hj]

/-- Setting the condition flags leaves the bits below them. -/
theorem getLsbD_setFlags (f : Flags) (w : Word) (j : Nat) :
    (setFlags f w).getLsbD j =
      if j = 28 then f.v else if j = 29 then f.c else if j = 30 then f.z else if j = 31 then f.n else w.getLsbD j := by
  simp only [setFlags]
  repeat rw [getLsbD_setBit _ _ _ _ (by omega)]

@[simp] theorem setFlags_n (k : CoreState) (f : Flags) : (k.setFlags f).n = f.n := by
  unfold CoreState.n CoreState.setFlags; rw [getLsbD_setFlags]; rfl
@[simp] theorem setFlags_z (k : CoreState) (f : Flags) : (k.setFlags f).z = f.z := by
  unfold CoreState.z CoreState.setFlags; rw [getLsbD_setFlags]; rfl
@[simp] theorem setFlags_c (k : CoreState) (f : Flags) : (k.setFlags f).c = f.c := by
  unfold CoreState.c CoreState.setFlags; rw [getLsbD_setFlags]; rfl
@[simp] theorem setFlags_v (k : CoreState) (f : Flags) : (k.setFlags f).v = f.v := by
  unfold CoreState.v CoreState.setFlags; rw [getLsbD_setFlags]; rfl

end Sys2Proof.Machine
end

