-- ==== Sys2Proof/Laws/Memory.lean ====
section
/-! SUPPORT. The byte arrays: a read after a write, the canonical form kept by every operation, and the bytes of a wide access. -/

namespace Sys2Proof.Machine

/-! Reading after writing. -/

theorem get_of_lt_head {n : Nat} (m : List (Nat × BitVec n)) (a : Nat) (h : ∀ x ∈ m, a < x.1) : Memory.get m a = 0 := by
  induction m with
  | nil => rfl
  | cons e rest ih =>
    obtain ⟨k, v⟩ := e
    have hk : a < k := h (k, v) (by simp)
    simp only [Memory.get, show k ≠ a by omega, if_false]
    exact ih fun x hx => h x (by simp [hx])

theorem get_put_same {n : Nat} (m : List (Nat × BitVec n)) (a : Nat) (v : BitVec n) (h : Memory.wf m) :
    Memory.get (Memory.put m a v) a = v := by
  have hs := h.1
  clear h
  induction m with
  | nil => by_cases hv : v = 0#n <;> simp [Memory.put, Memory.get, hv]
  | cons e rest ih =>
    obtain ⟨k, w⟩ := e
    simp only [List.pairwise_cons] at hs
    by_cases h1 : a < k
    · by_cases hv : v = 0#n
      · simp only [Memory.put, h1, hv, if_true]
        exact get_of_lt_head _ _ fun x hx => by
          rcases List.mem_cons.1 hx with rfl | hx
          · exact h1
          · exact Nat.lt_trans h1 (hs.1 x hx)
      · simp [Memory.put, Memory.get, h1, hv]
    · by_cases h2 : a = k
      · subst h2
        by_cases hv : v = 0#n
        · simp only [Memory.put, Nat.lt_irrefl, hv, if_true, if_false]
          exact get_of_lt_head _ _ fun x hx => hs.1 x hx
        · simp [Memory.put, Memory.get, hv]
      · simp only [Memory.put, h1, h2, if_false, Memory.get, show k ≠ a from fun e => h2 e.symm]
        exact ih hs.2

theorem get_put_ne {n : Nat} (m : List (Nat × BitVec n)) (a b : Nat) (v : BitVec n) (h : b ≠ a) :
    Memory.get (Memory.put m a v) b = Memory.get m b := by
  induction m with
  | nil => by_cases hv : v = 0#n <;> simp [Memory.put, Memory.get, hv, h.symm]
  | cons e rest ih =>
    obtain ⟨k, w⟩ := e
    by_cases h1 : a < k
    · by_cases hv : v = 0#n <;> simp [Memory.put, Memory.get, h1, hv, h.symm]
    · by_cases h2 : a = k
      · subst h2; by_cases hv : v = 0#n <;> simp [Memory.put, Memory.get, hv, h.symm]
      · simp only [Memory.put, h1, h2, if_false, Memory.get, ih]

theorem get_put {n : Nat} (m : List (Nat × BitVec n)) (a b : Nat) (v : BitVec n) (h : Memory.wf m) :
    Memory.get (Memory.put m a v) b = if b = a then v else Memory.get m b := by
  by_cases hb : b = a
  · subst hb; simp [get_put_same m b v h]
  · simp [hb, get_put_ne m a b v hb]

/-! The canonical form. -/

theorem wf_nil {n : Nat} : Memory.wf ([] : List (Nat × BitVec n)) := by simp [Memory.wf]

theorem mem_put {n : Nat} (m : List (Nat × BitVec n)) (a : Nat) (v : BitVec n) (x : Nat × BitVec n)
    (hx : x ∈ Memory.put m a v) : x ∈ m ∨ (x = (a, v) ∧ v ≠ 0) := by
  induction m with
  | nil => by_cases hv : v = 0#n <;> simp_all [Memory.put]
  | cons e rest ih =>
    obtain ⟨k, w⟩ := e
    unfold Memory.put at hx
    split at hx
    · split at hx
      · exact .inl hx
      · rcases List.mem_cons.1 hx with rfl | hx
        · exact .inr ⟨rfl, ‹_›⟩
        · exact .inl hx
    · split at hx
      · split at hx
        · exact .inl (List.mem_cons_of_mem _ hx)
        · rcases List.mem_cons.1 hx with rfl | hx
          · exact .inr ⟨rfl, ‹_›⟩
          · exact .inl (List.mem_cons_of_mem _ hx)
      · rcases List.mem_cons.1 hx with rfl | hx
        · exact .inl (by simp)
        · rcases ih hx with h | h
          · exact .inl (List.mem_cons_of_mem _ h)
          · exact .inr h

/-- A write keeps the canonical form. -/
theorem wf_put {n : Nat} (m : List (Nat × BitVec n)) (a : Nat) (v : BitVec n) (h : Memory.wf m) :
    Memory.wf (Memory.put m a v) := by
  refine ⟨?_, fun x hx => ?_⟩
  · have hs := h.1
    clear h
    induction m with
    | nil => by_cases hv : v = 0#n <;> simp [Memory.put, hv]
    | cons e rest ih =>
      obtain ⟨k, w⟩ := e
      have hs' := List.pairwise_cons.1 hs
      unfold Memory.put
      split
      · split
        · exact hs
        · refine List.pairwise_cons.2 ⟨fun x hx => ?_, hs⟩
          rcases List.mem_cons.1 hx with rfl | hx
          · assumption
          · exact Nat.lt_trans (by assumption) (hs'.1 x hx)
      · split
        · split
          · exact hs'.2
          · subst a; exact List.pairwise_cons.2 ⟨hs'.1, hs'.2⟩
        · refine List.pairwise_cons.2 ⟨fun x hx => ?_, ih hs'.2⟩
          rcases mem_put rest a v x hx with hx | ⟨rfl, _⟩
          · exact hs'.1 x hx
          · show k < a; omega
  · rcases mem_put m a v x hx with hx | ⟨rfl, hv⟩
    · exact h.2 x hx
    · exact hv

theorem wf_writeBytes (m : List Host.Cell) (o : Nat) (w : Width) (v : Word) (h : Memory.wf m) :
    Memory.wf (writeBytes m o w v) := by
  cases w <;> simp only [writeBytes] <;> repeat (first | exact h | apply wf_put)

theorem wf_ofBytes (o : Nat) (bs : List Byte) :
    Memory.wf (Memory.ofBytes o bs) ∧ ∀ x ∈ Memory.ofBytes o bs, o ≤ x.1 := by
  induction bs generalizing o with
  | nil => simp [Memory.ofBytes, Memory.wf]
  | cons b rest ih =>
    obtain ⟨⟨hs, hz⟩, hge⟩ := ih (o + 1)
    unfold Memory.ofBytes
    split
    · exact ⟨⟨hs, hz⟩, fun x hx => Nat.le_of_succ_le (hge x hx)⟩
    · refine ⟨⟨List.pairwise_cons.2 ⟨fun x hx => hge x hx, hs⟩, fun x hx => ?_⟩, fun x hx => ?_⟩
      · rcases List.mem_cons.1 hx with rfl | hx
        · assumption
        · exact hz x hx
      · rcases List.mem_cons.1 hx with rfl | hx
        · exact Nat.le_refl o
        · exact Nat.le_of_succ_le (hge x hx)

/-! The buffers. -/

@[simp] theorem cells_setCells_same (bs : Buffers) (b : Buf) (m : List Host.Cell) : (bs.setCells b m).cells b = m := by
  cases b <;> rfl

theorem cells_setCells_ne (bs : Buffers) (b c : Buf) (m : List Host.Cell) (h : c ≠ b) :
    (bs.setCells b m).cells c = bs.cells c := by
  cases b <;> cases c <;> first | rfl | exact absurd rfl h

theorem wf_cells (bs : Buffers) (h : bs.wf) (b : Buf) : Memory.wf (bs.cells b) := by
  obtain ⟨h1, h2, h3, h4, h5, h6, h7, h8, h9, h10⟩ := h
  cases b <;> assumption

theorem wf_setCells (bs : Buffers) (b : Buf) (m : List Host.Cell) (h : bs.wf) (hm : Memory.wf m) : (bs.setCells b m).wf := by
  obtain ⟨h1, h2, h3, h4, h5, h6, h7, h8, h9, h10⟩ := h
  cases b <;> simp only [Buffers.wf, Buffers.setCells] <;>
    exact ⟨by assumption, by assumption, by assumption, by assumption, by assumption, by assumption, by assumption,
      by assumption, by assumption, by assumption⟩

theorem wf_zero : Buffers.zero.wf := by decide

/-! One byte at a time. -/

theorem byteAt_setCells_ne (s : State) (b c : Buf) (m : List Host.Cell) (o : Nat) (h : c ≠ b) :
    (s.setCells b m).byteAt c o = s.byteAt c o := by
  simp [State.byteAt, State.setCells, cells_setCells_ne _ _ _ _ h]

theorem byteAt_setCells_same (s : State) (b : Buf) (m : List Host.Cell) (o : Nat) :
    (s.setCells b m).byteAt b o = Memory.get m o := by
  simp [State.byteAt, State.setCells]

/-- A byte outside a wide write is unchanged. -/
theorem get_writeBytes_outside (m : List Host.Cell) (o a : Nat) (w : Width) (v : Word) (h : a < o ∨ o + widthBytes w ≤ a) :
    Memory.get (writeBytes m o w v) a = Memory.get m a := by
  cases w <;> simp only [writeBytes, widthBytes] at * <;>
    repeat (first | rfl | rw [get_put_ne _ _ _ _ (by omega)])

/-- The bytes of a wide write, least significant first (R74). -/
theorem get_writeBytes_inside (m : List Host.Cell) (o i : Nat) (w : Width) (v : Word) (hm : Memory.wf m)
    (h : i < widthBytes w) : Memory.get (writeBytes m o w v) (o + i) = byteOf v i := by
  cases w <;> simp only [writeBytes, widthBytes] at *
  · obtain rfl : i = 0 := by omega
    exact get_put_same _ _ _ hm
  · rcases (by omega : i = 0 ∨ i = 1) with rfl | rfl
    · rw [get_put_ne _ _ _ _ (by omega)]; exact get_put_same _ _ _ hm
    · exact get_put_same _ _ _ (wf_put _ _ _ hm)
  · rcases (by omega : i = 0 ∨ i = 1 ∨ i = 2 ∨ i = 3) with rfl | rfl | rfl | rfl
    · rw [get_put_ne _ _ _ _ (by omega), get_put_ne _ _ _ _ (by omega), get_put_ne _ _ _ _ (by omega)]
      exact get_put_same _ _ _ hm
    · rw [get_put_ne _ _ _ _ (by omega), get_put_ne _ _ _ _ (by omega)]
      exact get_put_same _ _ _ (wf_put _ _ _ hm)
    · rw [get_put_ne _ _ _ _ (by omega)]
      exact get_put_same _ _ _ (wf_put _ _ _ (wf_put _ _ _ hm))
    · exact get_put_same _ _ _ (wf_put _ _ _ (wf_put _ _ _ (wf_put _ _ _ hm)))

/-- What a write of a buffer leaves, byte by byte. -/
theorem storedAt_setCells (s : State) (b : Buf) (o : Nat) (w : Width) (v : Word) (h : s.buf.wf) :
    StoredAt b o w v s (s.setCells b (writeBytes (s.buf.cells b) o w v)) := by
  refine ⟨fun i hi => ?_, fun b' o' ho => ?_⟩
  · rw [byteAt_setCells_same]; exact get_writeBytes_inside _ _ _ _ _ (wf_cells _ h b) hi
  · by_cases hb : b' = b
    · subst hb
      rw [byteAt_setCells_same, get_writeBytes_outside _ _ _ _ _ (by rcases ho with h | h | h; exact absurd rfl h; exact .inl h; exact .inr h)]
      rfl
    · exact byteAt_setCells_ne _ _ _ _ _ hb

end Sys2Proof.Machine
end

