-- ==== Sys2Proof/Laws/Bus.lean ====
section
/-! SUPPORT. What an access through the bus can change, with every handler script it may run: memory, the backing fields, the
interrupt registers, the halted flags, the page tables, the registries, the scheduler and the region controls; never a core's
registers, status, pipeline or log, nor the parameters. And that the parts of the invariant about what it does change are kept. -/

namespace Sys2Proof.Machine

/-- The part of a core no access touches. -/
structure CoreBusKept (k l : CoreState) : Prop where
  r          : l.r = k.r
  bankR13    : l.bankR13 = k.bankR13
  bankR14    : l.bankR14 = k.bankR14
  fiqR8      : l.fiqR8 = k.fiqR8
  nonfiqR8   : l.nonfiqR8 = k.nonfiqR8
  cpsr       : l.cpsr = k.cpsr
  spsr       : l.spsr = k.spsr
  pipe0      : l.pipe0 = k.pipe0
  pipe1      : l.pipe1 = k.pipe1
  timestamp  : l.timestamp = k.timestamp
  booted     : l.booted = k.booted
  unknownLog : l.unknownLog = k.unknownLog
  latch      : k.LatchExact → l.LatchExact

/-- The part of the machine no access touches, and the invariants every access keeps. -/
structure BusKept (s t : State) : Prop where
  running  : t.running = s.running
  branched : t.branched = s.branched
  owner    : t.owner = s.owner
  fault    : t.fault = s.fault
  par      : t.par = s.par
  handles  : s.HandlesFresh → t.HandlesFresh
  core     : ∀ c, CoreBusKept (s.core c) (t.core c)
  memory   : s.buf.wf → t.buf.wf
  fields   : Memory.wf s.fields → Memory.wf t.fields
  queue    : s.QueueAscending → t.QueueAscending

theorem CoreBusKept.refl (k : CoreState) : CoreBusKept k k := by constructor <;> first | rfl | exact id

theorem CoreBusKept.trans {k l m : CoreState} (a : CoreBusKept k l) (b : CoreBusKept l m) : CoreBusKept k m :=
  ⟨b.r.trans a.r, b.bankR13.trans a.bankR13, b.bankR14.trans a.bankR14, b.fiqR8.trans a.fiqR8, b.nonfiqR8.trans a.nonfiqR8,
    b.cpsr.trans a.cpsr, b.spsr.trans a.spsr, b.pipe0.trans a.pipe0, b.pipe1.trans a.pipe1, b.timestamp.trans a.timestamp,
    b.booted.trans a.booted, b.unknownLog.trans a.unknownLog, fun h => b.latch (a.latch h)⟩

theorem BusKept.refl (s : State) : BusKept s s :=
  ⟨rfl, rfl, rfl, rfl, rfl, id, fun _ => .refl _, id, id, id⟩

theorem BusKept.trans {s t u : State} (a : BusKept s t) (b : BusKept t u) : BusKept s u :=
  ⟨b.running.trans a.running, b.branched.trans a.branched, b.owner.trans a.owner, b.fault.trans a.fault,
    b.par.trans a.par, fun h => b.handles (a.handles h), fun c => (a.core c).trans (b.core c), fun h => b.memory (a.memory h),
    fun h => b.fields (a.fields h), fun h => b.queue (a.queue h)⟩

theorem BusKept.cur {s t : State} (h : BusKept s t) : CoreBusKept s.cur t.cur := by
  have := h.core s.running
  unfold State.cur
  rw [h.running]
  exact this

theorem BusKept.x {s t : State} (h : BusKept s t) (i : BitVec 4) : t.x i = s.x i := by
  simp [State.x, CoreState.reg, h.cur.r]

/-- Replacing one core by one that differs outside `CoreBusKept` only. -/
theorem busKept_setCore (s : State) (c : CoreId) (k : CoreState) (h : CoreBusKept (s.core c) k) : BusKept s (s.setCore c k) := by
  refine ⟨by simp, by simp, by simp, by simp, by simp, fun h => by simpa [State.HandlesFresh] using h, fun d => ?_, fun h => by simpa using h,
    fun h => by simpa using h, fun h => by simpa [State.QueueAscending] using h⟩
  by_cases hd : d = c
  · subst hd; simpa using h
  · rw [core_setCore_ne s c d k hd]; exact .refl _

theorem latchExact_updateLatch (k : CoreState) : k.updateLatch.LatchExact := rfl

theorem busKept_sendInterrupt (c : CoreId) (kind : BitVec 5) (s : State) : BusKept s (sendInterrupt c kind s) :=
  busKept_setCore _ _ _ ⟨rfl, rfl, rfl, rfl, rfl, rfl, rfl, rfl, rfl, rfl, rfl, rfl, fun _ => rfl⟩

theorem busKept_halt (c : CoreId) (s : State) : BusKept s (halt c s) :=
  busKept_setCore _ _ _ ⟨rfl, rfl, rfl, rfl, rfl, rfl, rfl, rfl, rfl, rfl, rfl, rfl, fun h => h⟩

theorem coreBusKept_irqWrite (k : CoreState) (r : IrqReg) (p : Part) (v : Word) : CoreBusKept k (irqWrite k r p v) := by
  cases r <;> cases p <;> exact ⟨rfl, rfl, rfl, rfl, rfl, rfl, rfl, rfl, rfl, rfl, rfl, rfl, fun _ => rfl⟩

theorem busKept_updateMemoryMap (c : CoreId) (low high : Nat) (s : State) : BusKept s (updateMemoryMap c low high s) :=
  busKept_setCore _ _ _ ⟨rfl, rfl, rfl, rfl, rfl, rfl, rfl, rfl, rfl, rfl, rfl, rfl, fun h => h⟩

theorem busKept_setField (s : State) (f : Nat) (v : Dword) : BusKept s (s.setField f v) :=
  ⟨rfl, rfl, rfl, rfl, rfl, id, fun c => by simpa using CoreBusKept.refl _, id, fun h => wf_put _ _ _ h, id⟩

theorem busKept_setCells (s : State) (b : Buf) (o : Nat) (w : Width) (v : Word) :
    BusKept s (s.setCells b (writeBytes (s.buf.cells b) o w v)) :=
  ⟨rfl, rfl, rfl, rfl, rfl, id, fun c => by simpa using CoreBusKept.refl _,
    fun h => wf_setCells _ _ _ h (wf_writeBytes _ _ _ _ (wf_cells _ h b)), id, id⟩

theorem busKept_ctl (s : State) (ctl : RegionControl) : BusKept s { s with ctl := ctl } :=
  ⟨rfl, rfl, rfl, rfl, rfl, id, fun c => by cases c <;> exact .refl _, id, id, id⟩

theorem busKept_draw (s : State) : BusKept s s.draw.2 :=
  ⟨rfl, rfl, rfl, rfl, rfl, id, fun c => by cases c <;> exact .refl _, id, id, id⟩

/-! The scheduler's queue. -/

theorem mem_insertEvent (q : List (Dword × Nat)) (t : Dword) (id : Nat) (e : Dword × Nat) :
    e ∈ insertEvent q t id ↔ e = (t, id) ∨ e ∈ q := by
  induction q with
  | nil => simp [insertEvent]
  | cons x rest ih =>
    unfold insertEvent
    split
    · simp
    · simp only [List.mem_cons, ih]
      constructor
      · rintro (h | h | h) <;> simp [h]
      · rintro (h | h | h) <;> simp [h]

/-- Insertion keeps the ascending order (R542). -/
theorem ascending_insertEvent (q : List (Dword × Nat)) (t : Dword) (id : Nat)
    (h : q.Pairwise fun x y => x.1.toNat ≤ y.1.toNat) :
    (insertEvent q t id).Pairwise fun x y => x.1.toNat ≤ y.1.toNat := by
  induction q with
  | nil => simp [insertEvent]
  | cons x rest ih =>
    obtain ⟨hx, hr⟩ := List.pairwise_cons.1 h
    unfold insertEvent
    split
    · next hlt =>
      refine List.pairwise_cons.2 ⟨fun y hy => ?_, h⟩
      rcases List.mem_cons.1 hy with rfl | hy
      · exact Nat.le_of_lt hlt
      · exact Nat.le_trans (Nat.le_of_lt hlt) (hx y hy)
    · next hge =>
      refine List.pairwise_cons.2 ⟨fun y hy => ?_, ih hr⟩
      rcases (mem_insertEvent _ _ _ _).1 hy with rfl | hy
      · exact Nat.le_of_not_lt hge
      · exact hx y hy

theorem busKept_queue (s : State) (q : List (Dword × Nat))
    (h : s.QueueAscending → q.Pairwise fun x y => x.1.toNat ≤ y.1.toNat) : BusKept s { s with queue := q } :=
  ⟨rfl, rfl, rfl, rfl, rfl, id, fun c => by cases c <;> exact .refl _, id, id, h⟩

theorem busKept_addEvent (d : Dword) (id : Nat) (s : State) : BusKept s (addEvent d id s) :=
  busKept_queue _ _ (ascending_insertEvent _ _ _)

theorem busKept_cancelEvent (id : Nat) (s : State) : BusKept s (cancelEvent id s) :=
  busKept_queue _ _ (fun h => h.filter _)

/-! Scripts and accesses. -/

/-- A way to read keeps what `BusKept` says. -/
def ReadKeeps (rd : ReadFn) : Prop := ∀ c a w s v t, rd c a w s = .next (v, t) → BusKept s t

/-- A way to write keeps what `BusKept` says. -/
def WriteKeeps (wr : WriteFn) : Prop := ∀ c a w v s t, wr c a w v s = .next t → BusKept s t

/-- A way to run scripts keeps what `BusKept` says. -/
def ScriptKeeps (f : Dword → Script → State → Res State) : Prop := ∀ v acts s t, f v acts s = .next t → BusKept s t

theorem runAction_keeps {rd : ReadFn} {wr : WriteFn} (hr : ReadKeeps rd) (hw : WriteKeeps wr) (v : Dword) (a : Action)
    (s t : State) (h : runAction rd wr v a s = .next t) : BusKept s t := by
  cases a <;> simp only [runAction, Host.Outcome.next.injEq] at h
  case read c w addr f =>
    obtain ⟨⟨x, u⟩, h1, h2⟩ := bind_eq_next.1 h
    simp only [Host.Outcome.next.injEq] at h2
    subst h2
    exact (hr _ _ _ _ _ _ h1).trans (busKept_setField _ _ _)
  case write c w addr x => exact hw _ _ _ _ _ _ h
  all_goals subst h
  case freeField f => exact (busKept_draw s).trans (busKept_setField _ _ _)
  all_goals
    first
    | exact busKept_setField _ _ _
    | exact .refl _
    | exact busKept_sendInterrupt _ _ _
    | exact busKept_halt _ _
    | exact busKept_addEvent _ _ _
    | exact busKept_cancelEvent _ _
    | exact busKept_updateMemoryMap _ _ _ _
    | exact busKept_ctl _ _

/-- Registering an identity keeps the handles fresh (R541). -/
theorem handlesFresh_registerEvent {name : String} {cb : Script} {s : State} (h : s.HandlesFresh) :
    (registerEvent name cb s).2.HandlesFresh := by
  refine ⟨List.pairwise_append.2 ⟨h.1, List.pairwise_singleton _ _, fun x hx y hy => ?_⟩, fun e he => ?_⟩
  · have := h.2 x hx
    rw [List.mem_singleton.1 hy]
    exact Nat.ne_of_lt this
  · rcases List.mem_append.1 he with he | he
    · exact Nat.lt_succ_of_lt (h.2 e he)
    · rw [List.mem_singleton.1 he]; exact Nat.lt_succ_self _

theorem busKept_registerEvent (name : String) (cb : Script) (s : State) : BusKept s (registerEvent name cb s).2 :=
  ⟨rfl, rfl, rfl, rfl, rfl, handlesFresh_registerEvent, fun c => by cases c <;> exact .refl _, id, id, id⟩

theorem busKept_registerMmio (c : CoreId) (r : Registration) (s : State) : BusKept s (registerMmio c r s) :=
  busKept_setCore _ _ _ ⟨rfl, rfl, rfl, rfl, rfl, rfl, rfl, rfl, rfl, rfl, rfl, rfl, fun h => h⟩

theorem iterate_keeps {go : State → Bool} {body : State → Res State} (hb : ∀ s t, body s = .next t → BusKept s t) (n : Nat) :
    ∀ s t, iterate go body n s = .next t → BusKept s t := by
  induction n with
  | zero => intro s t h; cases h; exact .refl _
  | succ n ih =>
    intro s t h
    unfold iterate at h
    split at h
    · obtain ⟨u, h1, h2⟩ := bind_eq_next.1 h
      exact (hb _ _ h1).trans (ih _ _ h2)
    · cases h; exact .refl _

/-- Everything a closure can change (R102). -/
theorem runClosure_keeps {rd : ReadFn} {wr : WriteFn} (hr : ReadKeeps rd) (hw : WriteKeeps wr) (v : Dword) (acts : Script) :
    ∀ s t, runClosure rd wr v acts s = .next t → BusKept s t := by
  induction acts with
  | done => intro s t h; cases h; exact .refl _
  | act a next ih =>
    intro s t h
    obtain ⟨u, h1, h2⟩ := bind_eq_next.1 h
    exact (runAction_keeps hr hw _ _ _ _ h1).trans (ih _ _ h2)
  | ite c yes no next hy hn ih =>
    intro s t h
    obtain ⟨u, h1, h2⟩ := bind_eq_next.1 h
    split at h1
    · exact (hn _ _ h1).trans (ih _ _ h2)
    · exact (hy _ _ h1).trans (ih _ _ h2)
  | loop count cond body next hb ih =>
    intro s t h
    obtain ⟨u, h1, h2⟩ := bind_eq_next.1 h
    exact (iterate_keeps hb _ _ _ h1).trans (ih _ _ h2)
  | registerEvent name cb f next _ ih =>
    intro s t h
    exact ((busKept_registerEvent _ _ _).trans (busKept_setField _ _ _)).trans (ih _ _ h)
  | registerMmio c addr w r rs w' ws next _ _ ih =>
    intro s t h
    exact (busKept_registerMmio _ _ _).trans (ih _ _ h)

theorem mmioRead_keeps {f : Dword → Script → State → Res State} (hf : ScriptKeeps f) (c : CoreId) (a : Word) (w : Width)
    (s : State) (v : Word) (t : State) (h : mmioRead f c a w s = .next (v, t)) : BusKept s t := by
  unfold mmioRead at h
  split at h
  · cases h
  · split at h
    · cases h; exact .refl _
    · cases h; exact .refl _
    · cases h; exact .refl _
    · obtain ⟨u, h1, h2⟩ := bind_eq_next.1 h
      cases h2
      exact hf _ _ _ _ h1

theorem mmioWrite_keeps {f : Dword → Script → State → Res State} (hf : ScriptKeeps f) (c : CoreId) (a : Word) (w : Width)
    (v : Word) (s t : State) (h : mmioWrite f c a w v s = .next t) : BusKept s t := by
  unfold mmioWrite at h
  split at h
  · cases h
  · split at h
    · cases h; exact busKept_setCore _ _ _ (coreBusKept_irqWrite _ _ _ _)
    · cases h; exact busKept_setField _ _ _
    · cases h; exact .refl _
    · exact hf _ _ _ _ h

theorem readWith_keeps {f : Dword → Script → State → Res State} (hf : ScriptKeeps f) : ReadKeeps (readWith f) := by
  intro c a w s v t h
  unfold readWith at h
  dsimp only at h
  split at h
  · cases h; exact .refl _
  · exact mmioRead_keeps hf _ _ _ _ _ _ h
  · cases h; exact .refl _
  · cases h; exact .refl _
  · cases h

theorem writeWith_keeps {f : Dword → Script → State → Res State} (hf : ScriptKeeps f) : WriteKeeps (writeWith f) := by
  intro c a w v s t h
  unfold writeWith at h
  dsimp only at h
  split at h
  · cases h; exact busKept_setCells _ _ _ _ _
  · exact mmioWrite_keeps hf _ _ _ _ _ _ h
  · cases h; exact .refl _
  · cases h; exact .refl _
  · cases h

theorem scriptAt_keeps (d : Nat) : ScriptKeeps (scriptAt d) := by
  induction d with
  | zero =>
    intro v acts s t h
    cases acts with
    | done => cases h; exact .refl _
    | _ => cases h
  | succ d ih =>
    intro v acts s t h
    exact runClosure_keeps (readWith_keeps ih) (writeWith_keeps ih) v acts s t h

/-- Everything a read can change (R72, R106). -/
theorem memRead_keeps : ReadKeeps memRead := fun _ _ _ _ _ _ h => readWith_keeps (scriptAt_keeps _) _ _ _ _ _ _ h

/-- Everything a write can change (R73, R106). -/
theorem memWrite_keeps : WriteKeeps memWrite := fun _ _ _ _ _ _ h => writeWith_keeps (scriptAt_keeps _) _ _ _ _ _ _ h

/-- Everything a callback or a peripheral's call can change (R117, R541). -/
theorem runScript_keeps (acts : Script) (s t : State) (h : runScript acts s = .next t) : BusKept s t :=
  runClosure_keeps memRead_keeps memWrite_keeps 0 acts s t h

theorem load_keeps {a : Word} {w : Width} {s t : State} {v : Word} (h : load a w s = .next (v, t)) : BusKept s t :=
  memRead_keeps _ _ _ _ _ _ h

theorem store_keeps {a : Word} {w : Width} {v : Word} {s t : State} (h : store a w v s = .next t) : BusKept s t :=
  memWrite_keeps _ _ _ _ _ _ h

/-! Plain accesses. -/

/-- A plain read answers its value and changes nothing (R77, R106). -/
theorem memRead_plain {c : CoreId} {a : Word} {w : Width} {s : State} {v : Word} (h : plainRead c a w s = some v) :
    memRead c a w s = .next (v, s) := by
  unfold plainRead at h
  unfold memRead readWith
  dsimp only
  split at h <;> simp_all

/-- A write that lands in a buffer changes that buffer's bytes and nothing else. -/
theorem memWrite_buffer {c : CoreId} {a : Word} {w : Width} {v : Word} {s : State} {b : Buf} {o : Nat}
    (h : locate c (alignDown a w) .write s = .buffer b o) :
    memWrite c a w v s = .next (s.setCells b (writeBytes (s.buf.cells b) o w v)) := by
  unfold memWrite writeWith
  simp only [h]

theorem memWrite_ignore {c : CoreId} {a : Word} {w : Width} {v : Word} {s : State}
    (h : locate c (alignDown a w) .write s = .ignore) : memWrite c a w v s = .next s := by
  unfold memWrite writeWith
  simp only [h]

/-- Where an access goes depends on the parameters, the page tables and the region controls only. -/
theorem locate_congr {c : CoreId} {a : Word} {d : Dir} {s t : State} (h1 : (t.core c).pageTable = (s.core c).pageTable)
    (h2 : t.ctl = s.ctl) (h0 : t.par = s.par) : locate c a d t = locate c a d s := by
  unfold locate
  rw [h0, h1, h2]

theorem plainRead_congr {c : CoreId} {a : Word} {w : Width} {s t : State} (h1 : (t.core c).pageTable = (s.core c).pageTable)
    (h2 : t.ctl = s.ctl) (h3 : t.buf = s.buf) (h0 : t.par = s.par) : plainRead c a w t = plainRead c a w s := by
  unfold plainRead
  rw [locate_congr h1 h2 h0, h3]

/-- A change of the executing core that leaves its page table leaves every plain read. -/
theorem plainRead_setCur (c : CoreId) (a : Word) (w : Width) (s : State) (k : CoreState)
    (h : k.pageTable = s.cur.pageTable) : plainRead c a w (s.setCur k) = plainRead c a w s := by
  refine plainRead_congr ?_ (by simp) (by simp) (by simp)
  by_cases hc : c = s.running
  · subst hc
    show ((s.setCore s.running k).core s.running).pageTable = _
    simp [h, State.cur]
  · rw [core_setCur_ne s k c hc]

@[simp] theorem plainRead_setX (c : CoreId) (a : Word) (w : Width) (s : State) (i : BitVec 4) (v : Word) :
    plainRead c a w (s.setX i v) = plainRead c a w s := plainRead_setCur _ _ _ _ _ rfl

@[simp] theorem plainRead_setPipe (c : CoreId) (a : Word) (w : Width) (s : State) (p q : Word) :
    plainRead c a w (s.setPipe p q) = plainRead c a w s := plainRead_setCur _ _ _ _ _ rfl

@[simp] theorem plainRead_setFlags (c : CoreId) (a : Word) (w : Width) (s : State) (f : Flags) :
    plainRead c a w (s.setFlags f) = plainRead c a w s := plainRead_setCur _ _ _ _ _ rfl

end Sys2Proof.Machine
end

