-- ==== Sys2Proof/Laws/Ops.lean ====
section
/-! SUPPORT. What the shared operations can do. `Ordinary` is what every operation but a change of mode, a status-register write
and an exception does: it composes, and every part of the invariant follows from it. -/

namespace Sys2Proof.Machine

/-- The bits of the status register an ordinary instruction leaves: all but N, Z, C, V, Q and T. -/
def ordinaryMask : Word := 0x07FFFFDF

/-- An ordinary change of the state: no other core's registers, no mode, no interrupt bit, no saved status; and either no jump
at all, or a flush that left the program counter aligned and the pipeline filled. -/
structure Ordinary (s t : State) : Prop where
  running   : t.running = s.running
  owner     : t.owner = s.owner
  fault     : t.fault = s.fault
  par       : t.par = s.par
  handles   : s.HandlesFresh → t.HandlesFresh
  other     : ∀ c, c ≠ s.running → CoreBusKept (s.core c) (t.core c)
  status    : t.cur.cpsr &&& ordinaryMask = s.cur.cpsr &&& ordinaryMask
  spsr      : t.cur.spsr = s.cur.spsr
  timestamp : t.cur.timestamp = s.cur.timestamp
  booted    : t.cur.booted = s.cur.booted
  latch     : s.cur.LatchExact → t.cur.LatchExact
  memory    : s.buf.wf → t.buf.wf
  fields    : Memory.wf s.fields → Memory.wf t.fields
  queue     : s.QueueAscending → t.QueueAscending
  flow      : (t.branched = s.branched ∧ t.cur.t = s.cur.t ∧ t.cur.pipe0 = s.cur.pipe0 ∧ t.cur.pipe1 = s.cur.pipe1 ∧
                t.x 15 = s.x 15) ∨
              (t.branched = true ∧ t.cur.PcAligned ∧ t.cur.PipeNarrow)

theorem Ordinary.refl (s : State) : Ordinary s s :=
  ⟨rfl, rfl, rfl, rfl, id, fun _ _ => .refl _, rfl, rfl, rfl, rfl, id, id, id, id, .inl ⟨rfl, rfl, rfl, rfl, rfl⟩⟩

/-- The same program counter, pipeline and instruction set stay aligned and narrow. -/
theorem flow_keep {k l : CoreState} (h1 : l.t = k.t) (h2 : l.pipe0 = k.pipe0) (h3 : l.pipe1 = k.pipe1)
    (h4 : l.reg 15 = k.reg 15) (hp : k.PcAligned) (hn : k.PipeNarrow) : l.PcAligned ∧ l.PipeNarrow := by
  unfold CoreState.PcAligned CoreState.PipeNarrow CoreState.pc at *
  rw [h1, h2, h3, h4]
  exact ⟨hp, hn⟩

theorem Ordinary.trans {s t u : State} (a : Ordinary s t) (b : Ordinary t u) : Ordinary s u := by
  refine ⟨b.running.trans a.running, b.owner.trans a.owner, b.fault.trans a.fault, b.par.trans a.par,
    fun h => b.handles (a.handles h), fun c hc => (a.other c hc).trans (b.other c (by rw [a.running]; exact hc)),
    b.status.trans a.status, b.spsr.trans a.spsr, b.timestamp.trans a.timestamp, b.booted.trans a.booted,
    fun h => b.latch (a.latch h), fun h => b.memory (a.memory h), fun h => b.fields (a.fields h),
    fun h => b.queue (a.queue h), ?_⟩
  rcases b.flow with ⟨b1, b2, b3, b4, b5⟩ | hb
  · rcases a.flow with ⟨a1, a2, a3, a4, a5⟩ | ⟨a1, a2, a3⟩
    · exact .inl ⟨b1.trans a1, b2.trans a2, b3.trans a3, b4.trans a4, b5.trans a5⟩
    · exact .inr ⟨b1.trans a1, flow_keep b2 b3 b4 b5 a2 a3⟩
  · exact .inr hb

/-- The mode field is among the bits an ordinary change leaves. -/
theorem mode_of_status {k l : CoreState} (h : l.cpsr &&& ordinaryMask = k.cpsr &&& ordinaryMask) : l.mode = k.mode := by
  have e : ∀ w : Word, w.extractLsb' 0 5 = (w &&& ordinaryMask).extractLsb' 0 5 := by
    intro w
    apply BitVec.eq_of_getLsbD_eq
    intro i hi
    have : i = 0 ∨ i = 1 ∨ i = 2 ∨ i = 3 ∨ i = 4 := by omega
    rcases this with rfl | rfl | rfl | rfl | rfl <;> simp [ordinaryMask]
  unfold CoreState.mode
  rw [e l.cpsr, e k.cpsr, h]

/-- An ordinary change keeps the invariant. -/
theorem Ordinary.inv {s t : State} (h : Ordinary s t) (hs : s.Inv) : t.Inv := by
  have cores : ∀ c, (s.core c).Inv := fun c => by cases c; exact hs.a7; exact hs.a9
  have hcur : t.cur.Inv := by
    have hk := cores s.running
    refine ⟨?_, h.latch hk.latch, ?_, ?_⟩
    · unfold CoreState.ModeLegal; rw [mode_of_status h.status]; exact hk.mode
    all_goals
      rcases h.flow with ⟨-, h1, h2, h3, h4⟩ | ⟨-, h1, h2⟩
      · first | exact (flow_keep h1 h2 h3 h4 hk.pc hk.pipe).1 | exact (flow_keep h1 h2 h3 h4 hk.pc hk.pipe).2
      · assumption
  have all : ∀ c, (t.core c).Inv := fun c => by
    by_cases hc : c = t.running
    · subst hc; exact hcur
    · have o := h.other c (by rw [← h.running]; exact hc)
      have hk := cores c
      have f := flow_keep (by unfold CoreState.t; rw [o.cpsr]) o.pipe0 o.pipe1 (by unfold CoreState.reg; rw [o.r]) hk.pc hk.pipe
      refine ⟨?_, o.latch hk.latch, f.1, f.2⟩
      unfold CoreState.ModeLegal CoreState.mode; rw [o.cpsr]; exact hk.mode
  refine ⟨all .a7, all .a9, h.memory hs.memory, h.fields hs.fields, h.queue hs.queue, h.handles hs.handles⟩

/-! Ordinary operations. -/

theorem BusKept.ordinary {s t : State} (h : BusKept s t) : Ordinary s t :=
  ⟨h.running, h.owner, h.fault, h.par, h.handles, fun c _ => h.core c, by rw [h.cur.cpsr], h.cur.spsr, h.cur.timestamp,
    h.cur.booted, h.cur.latch, h.memory, h.fields, h.queue,
    .inl ⟨h.branched, by simp [CoreState.t, h.cur.cpsr], h.cur.pipe0, h.cur.pipe1, h.x 15⟩⟩

/-- A change of the executing core alone that leaves its flow, and the status bits outside the flags. -/
theorem ordinary_setCur (s : State) (k : CoreState) (h1 : k.cpsr &&& ordinaryMask = s.cur.cpsr &&& ordinaryMask)
    (h2 : k.spsr = s.cur.spsr) (h3 : k.timestamp = s.cur.timestamp) (h4 : k.booted = s.cur.booted)
    (h6 : s.cur.LatchExact → k.LatchExact) (h7 : k.t = s.cur.t)
    (h8 : k.pipe0 = s.cur.pipe0) (h9 : k.pipe1 = s.cur.pipe1) (h10 : k.reg 15 = s.cur.reg 15) : Ordinary s (s.setCur k) :=
  ⟨by simp, by simp, by simp, by simp, fun h => by simpa [State.HandlesFresh] using h, fun c hc => by rw [core_setCur_ne s k c hc]; exact .refl _, by simpa using h1,
    by simpa using h2, by simpa using h3, by simpa using h4, by simpa using h6, by simp, by simp,
    fun h => by simpa [State.QueueAscending] using h,
    .inl ⟨by simp, by simpa using h7, by simpa using h8, by simpa using h9, by simpa [State.x] using h10⟩⟩

theorem ordinary_setX (s : State) (i : BitVec 4) (v : Word) (h : i ≠ 15) : Ordinary s (s.setX i v) :=
  ordinary_setCur _ _ rfl rfl rfl rfl id rfl rfl rfl (reg_setReg_ne _ _ _ _ (Ne.symm h))

theorem and_ordinaryMask_setBit (w : Word) (i : Nat) (b : Bool) (hi : i < 32) (hm : ordinaryMask.getLsbD i = false) :
    setBit w i b &&& ordinaryMask = w &&& ordinaryMask := by
  apply BitVec.eq_of_getLsbD_eq
  intro j hj
  rw [BitVec.getLsbD_and, BitVec.getLsbD_and, getLsbD_setBit _ _ _ _ hi]
  by_cases h : j = i
  · subst h; simp [hm]
  · simp [h]

theorem and_ordinaryMask_setFlags (f : Flags) (w : Word) : setFlags f w &&& ordinaryMask = w &&& ordinaryMask := by
  unfold setFlags
  rw [and_ordinaryMask_setBit _ _ _ (by decide) (by decide), and_ordinaryMask_setBit _ _ _ (by decide) (by decide),
    and_ordinaryMask_setBit _ _ _ (by decide) (by decide), and_ordinaryMask_setBit _ _ _ (by decide) (by decide)]

@[simp] theorem t_setFlags (k : CoreState) (f : Flags) : (k.setFlags f).t = k.t := by
  unfold CoreState.t CoreState.setFlags; rw [getLsbD_setFlags]; rfl

theorem ordinary_setFlags (s : State) (f : Flags) : Ordinary s (s.setFlags f) :=
  ordinary_setCur _ _ (and_ordinaryMask_setFlags _ _) rfl rfl rfl id (t_setFlags _ _) rfl rfl rfl

theorem ordinary_orQ (s : State) (b : Bool) : Ordinary s (s.orQ b) := by
  cases b
  · exact .refl _
  · refine ordinary_setCur _ _ (and_ordinaryMask_setBit _ _ _ (by decide) (by decide)) rfl rfl rfl id ?_ rfl rfl rfl
    unfold CoreState.t; rw [getLsbD_setBit _ _ _ _ (by decide)]; rfl

theorem ordinary_logUnknown (i : Instr) (s t : State) (h : logUnknown i s = .next t) : Ordinary s t := by
  cases h
  exact ordinary_setCur _ _ rfl rfl rfl rfl id rfl rfl rfl rfl

theorem ordinary_load {a : Word} {w : Width} {s t : State} {v : Word} (h : load a w s = .next (v, t)) : Ordinary s t :=
  (load_keeps h).ordinary

theorem ordinary_store {a : Word} {w : Width} {v : Word} {s t : State} (h : store a w v s = .next t) : Ordinary s t :=
  (store_keeps h).ordinary

/-! The width of what a read gives. -/

theorem truncate16_lt (v : Word) : (truncate .w16 v).toNat < 2 ^ 16 := by
  simp only [truncate, BitVec.toNat_and]
  exact Nat.lt_of_le_of_lt Nat.and_le_right (by decide)

theorem readBytes16_lt (m : List Host.Cell) (o : Nat) : (readBytes m o .w16).toNat < 2 ^ 16 := by
  simp only [readBytes, BitVec.toNat_setWidth]
  have := (Memory.get m (o + 1) ++ Memory.get m o).isLt
  omega

/-- A half-word read gives a half-word. -/
theorem load16_lt {a : Word} {s t : State} {v : Word} (h : load a .w16 s = .next (v, t)) : v.toNat < 2 ^ 16 := by
  unfold load memRead readWith at h
  dsimp only at h
  split at h
  · cases h; exact readBytes16_lt _ _
  · unfold mmioRead at h
    split at h
    · cases h
    · split at h
      · cases h; exact truncate16_lt _
      · cases h; exact truncate16_lt _
      · cases h; exact truncate16_lt _
      · obtain ⟨u, -, h2⟩ := bind_eq_next.1 h
        cases h2; exact truncate16_lt _
  · cases h; exact truncate16_lt _
  · cases h; decide
  · cases h

/-! The flush. -/

theorem fetchAddr_aligned (thumb : Bool) (a : Word) : fetchAddr thumb a &&& (if thumb then 1 else 3) = 0 := by
  cases thumb
  · show a &&& 0xFFFFFFFC &&& 3 = 0
    rw [BitVec.and_assoc]; simp
  · show a &&& 0xFFFFFFFE &&& 1 = 0
    rw [BitVec.and_assoc]; simp

theorem aligned_add_step (thumb : Bool) (a : Word) (h : a &&& (if thumb then 1 else 3) = 0) :
    (a + fetchStep thumb) &&& (if thumb then 1 else 3) = 0 := by
  have conv : ∀ (b : Word), b &&& (if thumb then 1 else 3) = 0 ↔ b.toNat % (if thumb then 2 else 4) = 0 := by
    intro b
    rw [← BitVec.toNat_inj]
    cases thumb
    · show (b &&& 3).toNat = 0 ↔ _
      rw [BitVec.toNat_and]
      show b.toNat &&& (2 ^ 2 - 1) = 0 ↔ _
      rw [Nat.and_two_pow_sub_one_eq_mod]; rfl
    · show (b &&& 1).toNat = 0 ↔ _
      rw [BitVec.toNat_and]
      show b.toNat &&& (2 ^ 1 - 1) = 0 ↔ _
      rw [Nat.and_two_pow_sub_one_eq_mod]; rfl
  rw [conv] at h ⊢
  cases thumb <;> simp only [fetchStep, BitVec.toNat_add, Bool.false_eq_true, if_false, if_true] at * <;>
    simp only [show (2 : Word).toNat = 2 from rfl, show (4 : Word).toNat = 4 from rfl] <;> omega

/-- Everything a flush can do (R174): nothing ordinary is lost; `R[15]` is the aligned target two instructions on, and the
other registers and the status are as they were. -/
theorem flush_spec {s t : State} (h : flush s = .next t) :
    t.branched = true ∧ t.cur.PcAligned ∧ t.cur.PipeNarrow ∧ t.cur.cpsr = s.cur.cpsr ∧
    t.x 15 = fetchAddr s.cur.t (s.x 15) + fetchStep s.cur.t + fetchStep s.cur.t ∧
    (∀ i, i ≠ 15 → t.x i = s.x i) ∧ Ordinary s t := by
  unfold flush at h
  dsimp only at h
  obtain ⟨⟨v0, a⟩, h1, h⟩ := bind_eq_next.1 h
  obtain ⟨⟨v1, b⟩, h2, h⟩ := bind_eq_next.1 h
  simp only [Host.Outcome.next.injEq] at h
  dsimp only at h2
  have k1 := load_keeps h1
  have k2 := load_keeps h2
  generalize hp : (if s.cur.t = true then s.x 15 &&& 0xFFFFFFFE else s.x 15 &&& 0xFFFFFFFC) = pc at *
  have hpc : pc = fetchAddr s.cur.t (s.x 15) := hp.symm
  generalize hst : (if s.cur.t = true then (2 : Word) else 4) = st at *
  have hst' : st = fetchStep s.cur.t := hst.symm
  have hb : b.cur.cpsr = s.cur.cpsr := by rw [k2.cur.cpsr]; simp [k1.cur.cpsr]
  have hbr : b.running = s.running := by rw [k2.running]; simp [k1.running]
  have htx : t.x 15 = pc + st + st := by rw [← h]; exact x_setX_same _ _ _
  have htc : t.cur = ({ b.cur with pipe0 := b.cur.pipe0, pipe1 := v1 } : CoreState).setReg 15 (pc + st + st) := by
    rw [← h]
    show ((b.setPipe b.cur.pipe0 v1).setX 15 (pc + st + st)).cur = _
    simp
  have htr : t.running = s.running := by rw [← h]; simp [hbr]
  have htt : t.cur.t = s.cur.t := by rw [htc]; unfold CoreState.t; simp [hb]
  have hpipe0 : b.cur.pipe0 = v0 := by rw [k2.cur.pipe0]; simp
  have haligned : t.cur.PcAligned := by
    unfold CoreState.PcAligned
    rw [htt]
    show t.x 15 &&& _ = 0
    rw [htx, hpc, hst']
    exact aligned_add_step _ _ (aligned_add_step _ _ (fetchAddr_aligned _ _))
  have hnarrow : t.cur.PipeNarrow := by
    intro ht
    rw [htt] at ht
    simp only [ht, if_true] at h1 h2
    rw [htc]
    exact ⟨by simpa [hpipe0] using load16_lt h1, by simpa using load16_lt h2⟩
  have hx : ∀ i, i ≠ 15 → t.x i = s.x i := by
    intro i hi
    rw [← h]
    show ((b.setPipe b.cur.pipe0 v1).setX 15 (pc + st + st)).x i = _
    rw [x_setX_ne _ _ _ _ hi, x_setPipe, k2.x, x_setPipe, k1.x, x_setX_ne _ _ _ _ hi]
  refine ⟨by rw [← h], haligned, hnarrow, by rw [htc]; simp [hb], by rw [htx, hpc, hst'], hx, ?_⟩
  refine ⟨htr, ?_, ?_, ?_, ?_, fun c hc => ?_, ?_, ?_, ?_, ?_, ?_, ?_, ?_, ?_, .inr ⟨by rw [← h], haligned, hnarrow⟩⟩
  · rw [← h]; simp [k2.owner, k1.owner]
  · rw [← h]; simp [k2.fault, k1.fault]
  · rw [← h]; simp [k2.par, k1.par]
  · intro hf
    have : b.HandlesFresh :=
      k2.handles (by simpa [State.HandlesFresh] using k1.handles (by simpa [State.HandlesFresh] using hf))
    rw [← h]; simpa [State.HandlesFresh] using this
  · have e1 : t.core c = b.core c := by
      rw [← h]
      show ((b.setPipe b.cur.pipe0 v1).setX 15 (pc + st + st)).core c = _
      rw [core_setX_ne _ _ _ _ (by simpa [hbr] using hc), core_setPipe_ne _ _ _ _ (by simpa [hbr] using hc)]
    have c2 := k2.core c
    have c1 := k1.core c
    rw [core_setPipe_ne _ _ _ _ (by simpa [k1.running] using hc)] at c2
    rw [core_setX_ne _ _ _ _ hc] at c1
    rw [e1]
    exact c1.trans c2
  · rw [htc]; simp [hb]
  · rw [htc]; simp [k2.cur.spsr, k1.cur.spsr]
  · rw [htc]; simp [k2.cur.timestamp, k1.cur.timestamp]
  · rw [htc]; simp [k2.cur.booted, k1.cur.booted]
  · intro hl
    have : b.cur.LatchExact := k2.cur.latch (by simpa [CoreState.LatchExact] using k1.cur.latch (by simpa [CoreState.LatchExact] using hl))
    rw [htc]
    simpa [CoreState.LatchExact] using this
  · intro hm
    have : b.buf.wf := k2.memory (by simpa using k1.memory (by simpa using hm))
    rw [← h]; simpa using this
  · intro hm
    have : Memory.wf b.fields := k2.fields (by simpa using k1.fields (by simpa using hm))
    rw [← h]; simpa using this
  · intro hm
    have : b.QueueAscending :=
      k2.queue (by simpa [State.QueueAscending] using k1.queue (by simpa [State.QueueAscending] using hm))
    rw [← h]; simpa [State.QueueAscending] using this

/-- A flush over plain memory completes, with the refilled state (R174). -/
theorem branchTo_fetches {target p0 p1 : Word} {s : State} (h : Fetches s.cur.t target s p0 p1) :
    branchTo target s = .next (s.refilled s.cur.t target p0 p1) := by
  obtain ⟨h0, h1⟩ := h
  unfold branchTo flush load
  dsimp only
  have ht : (s.setX 15 target).cur.t = s.cur.t := by simp [CoreState.t]
  simp only [ht, x_setX_same]
  have e0 : ∀ (a b : Word), (if s.cur.t = true then a &&& 0xFFFFFFFE else a &&& 0xFFFFFFFC) = fetchAddr s.cur.t a := fun _ _ => rfl
  rw [e0 target 0]
  have r0 : memRead (((s.setX 15 target).setX 15 (fetchAddr s.cur.t target)).running) (fetchAddr s.cur.t target)
      (if s.cur.t = true then .w16 else .w32) ((s.setX 15 target).setX 15 (fetchAddr s.cur.t target)) =
      .next (p0, (s.setX 15 target).setX 15 (fetchAddr s.cur.t target)) := memRead_plain (by simpa [fetchWidth] using h0)
  rw [r0]
  simp only [bind_next]
  have r1 := memRead_plain (c := s.running)
    (s := ((s.setX 15 target).setX 15 (fetchAddr s.cur.t target)).setPipe p0
      ((s.setX 15 target).setX 15 (fetchAddr s.cur.t target)).cur.pipe1) (v := p1)
    (a := fetchAddr s.cur.t target + fetchStep s.cur.t) (w := fetchWidth s.cur.t) (by simpa using h1)
  simp only [setPipe_running, setX_running]
  rw [show (if s.cur.t = true then (2 : Word) else 4) = fetchStep s.cur.t from rfl,
    show (if s.cur.t = true then Width.w16 else .w32) = fetchWidth s.cur.t from rfl, r1]
  simp [State.refilled, State.setPipe, State.setX, CoreState.setReg]

end Sys2Proof.Machine
end

