-- ==== Sys2Proof/Laws/Control.lean ====
section
/-! SUPPORT. What jumps, mode changes, status-register writes and exceptions can do. -/

namespace Sys2Proof.Machine

/-- What a jump leaves behind (R174). -/
structure Jumped (thumb : Bool) (target : Word) (s t : State) : Prop where
  branched : t.branched = true
  aligned  : t.cur.PcAligned
  narrow   : t.cur.PipeNarrow
  cpsr     : t.cur.cpsr = s.cur.cpsr
  pc       : t.x 15 = fetchAddr thumb target + fetchStep thumb + fetchStep thumb
  regs     : ∀ i, i ≠ 15 → t.x i = s.x i

/-- An ordinary change from a state whose executing core was prepared for a jump is an ordinary change. -/
theorem Ordinary.rebase {s t : State} {k : CoreState} (h : Ordinary (s.setCur k) t)
    (hb : t.branched = true ∧ t.cur.PcAligned ∧ t.cur.PipeNarrow)
    (h1 : k.cpsr &&& ordinaryMask = s.cur.cpsr &&& ordinaryMask) (h2 : k.spsr = s.cur.spsr)
    (h3 : k.timestamp = s.cur.timestamp) (h4 : k.booted = s.cur.booted)
    (h6 : s.cur.LatchExact → k.LatchExact) : Ordinary s t := by
  refine ⟨by simpa using h.running, by simpa using h.owner, by simpa using h.fault, by simpa using h.par,
    fun hf => h.handles (by simpa [State.HandlesFresh] using hf), fun c hc => ?_, by simpa [h1] using h.status, by simpa [h2] using h.spsr,
    by simpa [h3] using h.timestamp, by simpa [h4] using h.booted,
    fun hl => h.latch (by simpa using h6 hl), fun hm => h.memory (by simpa using hm),
    fun hm => h.fields (by simpa using hm), fun hm => h.queue (by simpa [State.QueueAscending] using hm), .inr hb⟩
  have := h.other c (by simpa using hc)
  rwa [core_setCur_ne s k c hc] at this

/-- Everything a jump can do (R174). -/
theorem branchTo_spec {target : Word} {s t : State} (h : branchTo target s = .next t) :
    Jumped s.cur.t target s t ∧ Ordinary s t := by
  obtain ⟨h1, h2, h3, h4, h5, h6, h7⟩ := flush_spec h
  have ht : (s.setX 15 target).cur.t = s.cur.t := by simp [CoreState.t]
  rw [ht, x_setX_same] at h5
  exact ⟨⟨h1, h2, h3, by simpa using h4, h5, fun i hi => by rw [h6 i hi, x_setX_ne _ _ _ _ hi]⟩,
    h7.rebase ⟨h1, h2, h3⟩ rfl rfl rfl rfl id⟩

theorem ordinary_branchTo {target : Word} {s t : State} (h : branchTo target s = .next t) : Ordinary s t :=
  (branchTo_spec h).2

theorem and_ordinaryMask_setT (k : CoreState) (b : Bool) : (k.setT b).cpsr &&& ordinaryMask = k.cpsr &&& ordinaryMask :=
  and_ordinaryMask_setBit _ _ _ (by decide) (by decide)

@[simp] theorem t_setT (k : CoreState) (b : Bool) : (k.setT b).t = b := by
  unfold CoreState.t CoreState.setT; rw [getLsbD_setBit _ _ _ _ (by decide)]; rfl

/-- Everything a jump with a change of instruction set can do (R312). -/
theorem branchTo_setT_spec {target : Word} {b : Bool} {s t : State}
    (h : branchTo target (s.setCur (s.cur.setT b)) = .next t) :
    t.cur.cpsr = (s.cur.setT b).cpsr ∧ t.x 15 = fetchAddr b target + fetchStep b + fetchStep b ∧
    (∀ i, i ≠ 15 → t.x i = s.x i) ∧ Ordinary s t := by
  obtain ⟨j, o⟩ := branchTo_spec h
  refine ⟨by simpa using j.cpsr, by simpa using j.pc, fun i hi => by simpa [State.x] using j.regs i hi,
    o.rebase ⟨j.branched, j.aligned, j.narrow⟩ (and_ordinaryMask_setT _ _) rfl rfl rfl id⟩

theorem ordinary_exchangeTo {v : Word} {s t : State} (h : exchangeTo v s = .next t) : Ordinary s t :=
  (branchTo_setT_spec h).2.2.2

theorem ordinary_loadPc {v : Word} {s t : State} (h : loadPc v s = .next t) : Ordinary s t := by
  unfold loadPc at h
  split at h
  · exact (branchTo_setT_spec h).2.2.2
  · exact ordinary_branchTo h

theorem ordinary_writeReg {i : BitVec 4} {v : Word} {s t : State} (h : writeReg i v s = .next t) : Ordinary s t := by
  unfold writeReg at h
  split at h
  · exact ordinary_branchTo h
  · cases h; exact ordinary_setX _ _ _ ‹_›

theorem ordinary_putWord {i : BitVec 4} {v : Word} {s t : State} (h : putWord i v s = .next t) : Ordinary s t := by
  unfold putWord at h
  split at h
  · exact ordinary_loadPc h
  · cases h; exact ordinary_setX _ _ _ ‹_›

theorem ordinary_conditional {cond : BitVec 4} {s t : State} {body : Res State} (h : conditional cond s body = .next t)
    (hb : body = .next t → Ordinary s t) : Ordinary s t := by
  unfold conditional at h
  split at h
  · exact hb h
  · cases h; exact .refl _

theorem ordinary_onA9 {i : Instr} {s t : State} {body : Res State} (h : onA9 i s body = .next t)
    (hb : body = .next t → Ordinary s t) : Ordinary s t := by
  unfold onA9 at h
  split at h
  · exact hb h
  · exact ordinary_logUnknown _ _ _ h

/-- A sequence of two ordinary operations is ordinary. -/
theorem ordinary_bind {α : Type} {s t : State} {x : Res (α × State)} {f : α × State → Res State}
    (h : Res.bind x f = .next t) (h1 : ∀ a u, x = .next (a, u) → Ordinary s u)
    (h2 : ∀ a u, f (a, u) = .next t → Ordinary u t) : Ordinary s t := by
  obtain ⟨⟨a, u⟩, e1, e2⟩ := bind_eq_next.1 h
  exact (h1 a u e1).trans (h2 a u e2)

theorem ordinary_bind' {s t : State} {x : Res State} {f : State → Res State}
    (h : Res.bind x f = .next t) (h1 : ∀ u, x = .next u → Ordinary s u) (h2 : ∀ u, f u = .next t → Ordinary u t) :
    Ordinary s t := by
  obtain ⟨u, e1, e2⟩ := bind_eq_next.1 h
  exact (h1 u e1).trans (h2 u e2)

/-! Reads through a getter. -/

/-- A getter's read is ordinary. -/
def GetOrdinary (get : Word → State → Res (Word × State)) : Prop := ∀ a s v t, get a s = .next (v, t) → Ordinary s t

theorem getOrdinary_map {get : Word → State → Res (Word × State)} (hg : GetOrdinary get) (f : Word → Word → Word) :
    GetOrdinary fun a s => Res.bind (get a s) fun p => .next (f a p.1, p.2) := by
  intro a s v t h
  obtain ⟨⟨x, u⟩, e1, e2⟩ := bind_eq_next.1 h
  cases e2
  exact hg _ _ _ _ e1

theorem getOrdinary_load (w : Width) : GetOrdinary fun a s => load a w s := fun _ _ _ _ h => ordinary_load h
theorem getOrdinary_loadWord : GetOrdinary loadWord := getOrdinary_map (getOrdinary_load _) _
theorem getOrdinary_loadByte : GetOrdinary loadByte := getOrdinary_load _
theorem getOrdinary_loadHalf : GetOrdinary loadHalf := getOrdinary_map (getOrdinary_load _) _
theorem getOrdinary_loadSignedByte : GetOrdinary loadSignedByte := getOrdinary_map (getOrdinary_load _) fun _ v => signByte v
theorem getOrdinary_loadSignedHalf : GetOrdinary loadSignedHalf := by
  intro a s v t h
  unfold loadSignedHalf at h
  split at h
  · exact getOrdinary_loadSignedByte _ _ _ _ h
  · exact getOrdinary_map (getOrdinary_load .w16) (fun _ v => signHalf v) _ _ _ _ h

theorem ordinary_writeBack {rn : BitVec 4} {a : Address} {s t : State} (h : writeBack rn a s = .next t) : Ordinary s t := by
  unfold writeBack at h
  split at h
  · exact ordinary_writeReg h
  · cases h; exact .refl _

/-! The mode switch (R17). -/

@[simp] theorem swapBanks_same (b : Bank) (k : CoreState) : swapBanks b b k = k := by simp [swapBanks]

/-- What a bank swap never touches. -/
theorem swapBanks_frame (old new : Bank) (k : CoreState) :
    (swapBanks old new k).cpsr = k.cpsr ∧ (swapBanks old new k).spsr = k.spsr ∧ (swapBanks old new k).pipe0 = k.pipe0 ∧
    (swapBanks old new k).pipe1 = k.pipe1 ∧ (swapBanks old new k).halted = k.halted ∧
    (swapBanks old new k).timestamp = k.timestamp ∧ (swapBanks old new k).ime = k.ime ∧ (swapBanks old new k).ie = k.ie ∧
    (swapBanks old new k).ifl = k.ifl ∧ (swapBanks old new k).irqLatch = k.irqLatch ∧ (swapBanks old new k).booted = k.booted ∧
    (swapBanks old new k).unknownLog = k.unknownLog ∧ (swapBanks old new k).pageTable = k.pageTable ∧
    (swapBanks old new k).mmio = k.mmio := by
  unfold swapBanks swapLow swapFiq
  split
  · exact ⟨rfl, rfl, rfl, rfl, rfl, rfl, rfl, rfl, rfl, rfl, rfl, rfl, rfl, rfl⟩
  · split
    · exact ⟨rfl, rfl, rfl, rfl, rfl, rfl, rfl, rfl, rfl, rfl, rfl, rfl, rfl, rfl⟩
    · split <;> exact ⟨rfl, rfl, rfl, rfl, rfl, rfl, rfl, rfl, rfl, rfl, rfl, rfl, rfl, rfl⟩

/-- R0 to R7 and R15 are in no bank (R17). -/
theorem reg_swapBanks (old new : Bank) (k : CoreState) (i : BitVec 4) (h : i.toNat < 8 ∨ i = 15) :
    (swapBanks old new k).reg i = k.reg i := by
  have n8 : i ≠ 8 := by rintro rfl; revert h; decide
  have n9 : i ≠ 9 := by rintro rfl; revert h; decide
  have n10 : i ≠ 10 := by rintro rfl; revert h; decide
  have n11 : i ≠ 11 := by rintro rfl; revert h; decide
  have n12 : i ≠ 12 := by rintro rfl; revert h; decide
  have n13 : i ≠ 13 := by rintro rfl; revert h; decide
  have n14 : i ≠ 14 := by rintro rfl; revert h; decide
  have base : ∀ (l : CoreState), (swapLow old new l).reg i = l.reg i := by
    intro l
    unfold swapLow
    rw [reg_setReg_ne _ _ _ _ n14, reg_setReg_ne _ _ _ _ n13]
    rfl
  have low : ∀ (v : Vector Word 5), (k.setR8to12 v).reg i = k.reg i := by
    intro v
    unfold CoreState.setR8to12
    rw [reg_setReg_ne _ _ _ _ n12, reg_setReg_ne _ _ _ _ n11, reg_setReg_ne _ _ _ _ n10, reg_setReg_ne _ _ _ _ n9,
      reg_setReg_ne _ _ _ _ n8]
  unfold swapBanks
  split
  · rfl
  · rw [base]
    unfold swapFiq
    split
    · exact low _
    · split
      · exact low _
      · rfl

@[simp] theorem cpsr_setMode (k : CoreState) (m : BitVec 5) :
    (k.setMode m).cpsr = (k.cpsr &&& 0xFFFFFFE0) ||| m.setWidth 32 := rfl

/-- The mode field after it is set. -/
@[simp] theorem mode_setMode (k : CoreState) (m : BitVec 5) : (k.setMode m).mode = m := by
  apply BitVec.eq_of_getLsbD_eq
  intro i hi
  have : i = 0 ∨ i = 1 ∨ i = 2 ∨ i = 3 ∨ i = 4 := by omega
  rcases this with rfl | rfl | rfl | rfl | rfl <;> simp [CoreState.mode]

/-- Everything `switch_mode` can do (R17, R14). -/
theorem switchMode_spec {m : Word} {s t : State} (h : switchMode m s = .next t) :
    ∃ new, bankOf (m.extractLsb' 0 5) = some new ∧
      t = s.setCur ((swapBanks s.cur.bank new s.cur).setMode (m.extractLsb' 0 5)) := by
  unfold switchMode at h
  dsimp only at h
  split at h
  · cases h
  · next new hn => cases h; exact ⟨new, hn, rfl⟩

theorem switchMode_valid {m : Word} {s : State} {new : Bank} (h : bankOf (m.extractLsb' 0 5) = some new) :
    switchMode m s = .next (s.setCur ((swapBanks s.cur.bank new s.cur).setMode (m.extractLsb' 0 5))) := by
  unfold switchMode; simp only [h]

theorem switchMode_invalid {m : Word} {s : State} (h : bankOf (m.extractLsb' 0 5) = none) :
    switchMode m s = .fault (.invalidMode (m.extractLsb' 0 5)) := by
  unfold switchMode; simp only [h]

/-- Everything `write_cpsr` can do (R22). -/
theorem writeCpsr_spec {v : Word} {s t : State} (h : writeCpsr v s = .next t) :
    ∃ new, bankOf (v.extractLsb' 0 5) = some new ∧
      t = s.setCur { swapBanks s.cur.bank new s.cur with cpsr := v }.updateLatch := by
  obtain ⟨u, h1, h2⟩ := bind_eq_next.1 h
  obtain ⟨new, hn, rfl⟩ := switchMode_spec h1
  refine ⟨new, hn, ?_⟩
  cases h2
  simp [CoreState.setMode]

/-! Status-register writes, exceptions and the invariant. -/

theorem cores_inv {s : State} (h : s.Inv) (c : CoreId) : (s.core c).Inv := by cases c; exact h.a7; exact h.a9

/-- Replacing the executing core by one that meets the invariant. -/
theorem inv_setCur {s : State} {k : CoreState} (h : s.Inv) (hk : k.Inv) : (s.setCur k).Inv := by
  have all : ∀ c, ((s.setCur k).core c).Inv := fun c => by
    by_cases hc : c = s.running
    · subst hc
      have : (s.setCur k).core s.running = k := by simp [State.setCur]
      rwa [this]
    · rw [core_setCur_ne s k c hc]; exact cores_inv h c
  exact ⟨all .a7, all .a9, by simpa using h.memory, by simpa using h.fields,
    by simpa [State.QueueAscending] using h.queue, by simpa [State.HandlesFresh] using h.handles⟩

/-- Everything an operation that ends in a jump owes the invariant: the core before the jump needs a legal mode and an exact
latch only. -/
theorem inv_branchTo {s t : State} {k : CoreState} {target : Word} (h : s.Inv) (hm : k.ModeLegal) (hl : k.LatchExact)
    (hb : branchTo target (s.setCur k) = .next t) : t.Inv := by
  obtain ⟨j, o⟩ := branchTo_spec hb
  have cores : ∀ c, c ≠ s.running → (t.core c).Inv := fun c hc => by
    have k1 := o.other c (by simpa using hc)
    rw [core_setCur_ne s k c hc] at k1
    have hk := cores_inv h c
    have f := flow_keep (by unfold CoreState.t; rw [k1.cpsr]) k1.pipe0 k1.pipe1 (by unfold CoreState.reg; rw [k1.r])
      hk.pc hk.pipe
    refine ⟨?_, k1.latch hk.latch, f.1, f.2⟩
    unfold CoreState.ModeLegal CoreState.mode; rw [k1.cpsr]; exact hk.mode
  have hr : t.running = s.running := by simpa using o.running
  have hcur : t.cur.Inv := by
    refine ⟨?_, o.latch (by simpa using hl), j.aligned, j.narrow⟩
    unfold CoreState.ModeLegal CoreState.mode
    rw [j.cpsr]
    simpa [CoreState.ModeLegal, CoreState.mode] using hm
  have all : ∀ c, (t.core c).Inv := fun c => by
    by_cases hc : c = s.running
    · subst hc; rw [← hr]; exact hcur
    · exact cores c hc
  exact ⟨all .a7, all .a9, o.memory (by simpa using h.memory), o.fields (by simpa using h.fields),
    o.queue (by simpa [State.QueueAscending] using h.queue), o.handles (by simpa [State.HandlesFresh] using h.handles)⟩

/-- Writing the CPSR keeps the invariant where the instruction set stays (R22). -/
theorem inv_writeCpsr {v : Word} {s t : State} (hi : s.Inv) (ht : v.getLsbD 5 = s.cur.t)
    (h : writeCpsr v s = .next t) : t.Inv := by
  obtain ⟨new, hn, rfl⟩ := writeCpsr_spec h
  have hk : s.cur.Inv := cores_inv hi s.running
  obtain ⟨f1, f2, f3, f4, f5⟩ := swapBanks_frame s.cur.bank new s.cur
  let k' : CoreState := { swapBanks s.cur.bank new s.cur with cpsr := v }.updateLatch
  have fl := flow_keep (k := s.cur) (l := k') ht f3 f4
    (reg_swapBanks s.cur.bank new s.cur 15 (.inr rfl)) hk.pc hk.pipe
  refine inv_setCur hi ⟨?_, rfl, fl.1, fl.2⟩
  unfold CoreState.ModeLegal CoreState.mode
  simp [hn]

/-- An exception return keeps the invariant (R212). -/
theorem inv_returnFromException {r : Word} {s t : State} (hi : s.Inv) (h : returnFromException r s = .next t) : t.Inv := by
  obtain ⟨v, h1, h2⟩ := bind_eq_next.1 h
  obtain ⟨u, h3, h4⟩ := bind_eq_next.1 h2
  obtain ⟨new, hn, rfl⟩ := writeCpsr_spec h3
  refine inv_branchTo hi ?_ (latchExact_updateLatch _) h4
  unfold CoreState.ModeLegal CoreState.mode
  simp [hn]

/-- Taking an exception keeps the invariant (R502). -/
theorem inv_enterException {m v lr : Word} {s t : State} (hi : s.Inv) (h : enterException m v lr s = .next t) : t.Inv := by
  obtain ⟨u, h1, h2⟩ := bind_eq_next.1 h
  obtain ⟨new, hn, rfl⟩ := switchMode_spec h1
  simp only [cur_setCur, setCur_setCur] at h2
  have hk : s.cur.Inv := cores_inv hi s.running
  obtain ⟨f1, f2, f3, f4, f5, f6, f7, f8, f9, f10, f11⟩ := swapBanks_frame s.cur.bank new s.cur
  refine inv_branchTo hi ?_ ?_ h2
  · unfold CoreState.ModeLegal
    have e : ∀ w : Word, (setBit (setBit w 7 true) 5 false).extractLsb' 0 5 = w.extractLsb' 0 5 := by
      intro w
      apply BitVec.eq_of_getLsbD_eq
      intro i hi
      simp only [BitVec.getLsbD_extractLsb', Nat.zero_add, hi, decide_true, Bool.true_and]
      rw [getLsbD_setBit _ _ _ _ (by decide), getLsbD_setBit _ _ _ _ (by decide)]
      simp [show i ≠ 5 by omega, show i ≠ 7 by omega]
    have := mode_setMode (swapBanks s.cur.bank new s.cur) (m.extractLsb' 0 5)
    unfold CoreState.mode at this ⊢
    simp only [setReg_cpsr]
    rw [e, this, hn]; rfl
  · have := hk.latch
    unfold CoreState.LatchExact at *
    simpa [f7, f8, f9, f10] using this

theorem readSpsr_eq {s : State} {v : Word} (h : readSpsr s = .next v) : s.cur.spsr.get s.cur.bank = some v := by
  unfold readSpsr at h
  split at h <;> simp_all

/-- Writing the SPSR changes nothing else (R26). -/
theorem writeSpsr_spec {v : Word} {s t : State} (h : writeSpsr v s = .next t) :
    t = s.setCur { s.cur with spsr := s.cur.spsr.set s.cur.bank v } := by
  unfold writeSpsr at h
  split at h
  · cases h; rfl
  · cases h

theorem inv_writeSpsr {v : Word} {s t : State} (hi : s.Inv) (h : writeSpsr v s = .next t) : t.Inv := by
  rw [writeSpsr_spec h]
  have hk : s.cur.Inv := cores_inv hi s.running
  exact inv_setCur hi ⟨hk.mode, hk.latch, hk.pc, hk.pipe⟩

end Sys2Proof.Machine
end

