-- ==== Sys2Proof/Laws/Ordinary.lean ====
section
/-! SUPPORT. Every building block of the meanings but the mode changes is an ordinary change of the state (Laws/Ops.lean), so
keeps the invariant. -/

namespace Sys2Proof.Machine

theorem ordinary_dpWrite {h : DpHead} {a : Alu} {s t : State} (hn : (h.rd == 15 && h.s == 1) = false)
    (e : dpWrite h a s = .next t) : Ordinary s t := by
  unfold dpWrite at e
  split at e
  · next h15 =>
    split at e
    · exact ordinary_branchTo e
    · next hs =>
      have : h.s = 1 := by
        have := h.s.isLt
        have h0 : h.s.toNat ≠ 0 := fun q => hs (BitVec.eq_of_toNat_eq q)
        exact BitVec.eq_of_toNat_eq (by show h.s.toNat = 1; omega)
      simp [h15, this] at hn
  · next h15 =>
    cases e
    split
    · exact (ordinary_setX _ _ _ h15).trans (ordinary_setFlags _ _)
    · exact ordinary_setX _ _ _ h15

theorem ordinary_dpCompare {a : Alu} {s t : State} (e : dpCompare a s = .next t) : Ordinary s t := by
  cases e; exact ordinary_setFlags _ _

theorem ordinary_setNz (sb : BitVec 1) (r : Word) (s : State) : Ordinary s (setNz sb r s) := by
  unfold setNz; split; exact ordinary_setFlags _ _; exact .refl _

theorem ordinary_setNzLong (sb : BitVec 1) (r : Dword) (s : State) : Ordinary s (setNzLong sb r s) := by
  unfold setNzLong; split; exact ordinary_setFlags _ _; exact .refl _

theorem ordinary_writeLong {hi lo : BitVec 4} {p : Dword} {s t : State} (e : writeLong hi lo p s = .next t) : Ordinary s t :=
  ordinary_bind' e (fun _ => ordinary_writeReg) (fun _ => ordinary_writeReg)

theorem ordinary_singleLoad {get : Word → State → Res (Word × State)} {put : Word → State → Res State} {rn : BitVec 4}
    {a : Address} {s t : State} (hg : GetOrdinary get) (hp : ∀ v u w, put v u = .next w → Ordinary u w)
    (e : singleLoad get put rn a s = .next t) : Ordinary s t :=
  ordinary_bind e (fun _ _ h => hg _ _ _ _ h) fun _ _ h =>
    ordinary_bind' h (fun _ => ordinary_writeBack) (fun _ => hp _ _ _)

theorem ordinary_singleStore {w : Width} {rd rn : BitVec 4} {a : Address} {s t : State}
    (e : singleStore w rd rn a s = .next t) : Ordinary s t :=
  ordinary_bind' e (fun _ => ordinary_store) (fun _ => ordinary_writeBack)

theorem odd_ne15 {rd : BitVec 4} (h : ¬ rd.getLsbD 0 = true) : rd ≠ 15 := by
  rintro rfl; exact h rfl

theorem ordinary_doubleLoad {i : Instr} {rd rn : BitVec 4} {a : Address} {s t : State}
    (e : doubleLoad i rd rn a s = .next t) : Ordinary s t := by
  unfold doubleLoad at e
  split at e
  · exact ordinary_logUnknown _ _ _ e
  · next hd =>
    refine ordinary_bind e (fun _ _ => ordinary_load) fun lo u e => ?_
    refine ordinary_bind e (fun _ _ => ordinary_load) fun hi u e => ?_
    refine ordinary_bind' e (fun _ => ordinary_writeBack) fun u e => ?_
    exact (ordinary_setX _ _ _ (odd_ne15 hd)).trans (ordinary_writeReg e)

theorem ordinary_doubleStore {i : Instr} {rd rn : BitVec 4} {a : Address} {s t : State}
    (e : doubleStore i rd rn a s = .next t) : Ordinary s t := by
  unfold doubleStore at e
  split at e
  · exact ordinary_logUnknown _ _ _ e
  · refine ordinary_bind' e (fun _ => ordinary_store) fun u e => ?_
    exact ordinary_bind' e (fun _ => ordinary_store) fun _ => ordinary_writeBack

theorem ordinary_swap {get : Word → State → Res (Word × State)} {w : Width} {o : SwpOps} {s t : State}
    (hg : GetOrdinary get) (e : swap get w o s = .next t) : Ordinary s t :=
  ordinary_bind e (fun _ _ h => hg _ _ _ _ h) fun _ _ h => ordinary_bind' h (fun _ => ordinary_store) fun _ => ordinary_writeReg

theorem ordinary_loadList (regs : List (BitVec 4)) : ∀ a s q t, loadList regs a s = .next (q, t) → Ordinary s t := by
  induction regs with
  | nil => intro a s q t e; cases e; exact .refl _
  | cons i rest ih =>
    intro a s q t e
    obtain ⟨⟨v, u⟩, h1, e⟩ := bind_eq_next.1 e
    obtain ⟨⟨v2, u2⟩, h2, e⟩ := bind_eq_next.1 e
    cases e
    exact (ordinary_load h1).trans (ih _ _ _ _ h2)

theorem ordinary_storeList (vs : List Word) : ∀ a s t, storeList vs a s = .next t → Ordinary s t := by
  induction vs with
  | nil => intro a s t e; cases e; exact .refl _
  | cons i rest ih =>
    intro a s t e
    exact ordinary_bind' e (fun _ => ordinary_store) fun _ => ih _ _ _

theorem ordinary_setUserReg (s : State) (i : BitVec 4) (v : Word) (h : i ≠ 15) : Ordinary s (s.setCur (s.cur.setUserReg i v)) := by
  unfold CoreState.setUserReg
  split
  · exact ordinary_setCur _ _ rfl rfl rfl rfl id rfl rfl rfl rfl
  · split
    · exact ordinary_setCur _ _ rfl rfl rfl rfl id rfl rfl rfl rfl
    · split
      · exact ordinary_setCur _ _ rfl rfl rfl rfl id rfl rfl rfl rfl
      · exact ordinary_setX _ _ _ h

theorem ordinary_writeList (user : Bool) (vs : List (BitVec 4 × Word)) : ∀ s, Ordinary s (writeList user vs s) := by
  induction vs with
  | nil => intro s; exact .refl _
  | cons p rest ih =>
    intro s
    obtain ⟨i, v⟩ := p
    unfold writeList
    dsimp only
    split
    · exact ih _
    · next h =>
      refine Ordinary.trans ?_ (ih _)
      split
      · exact ordinary_setUserReg _ _ _ h
      · exact ordinary_setX _ _ _ h

theorem ordinary_if {c : Prop} [Decidable c] {s t : State} {x y : Res State} (e : (if c then x else y) = .next t)
    (hx : x = .next t → Ordinary s t) (hy : y = .next t → Ordinary s t) : Ordinary s t := by
  split at e; exact hx e; exact hy e

theorem ordinary_next {s t : State} (e : (Host.Outcome.next s : Res State) = .next t) : Ordinary s t := by cases e; exact .refl _

/-- Everything an LDM outside the S form can do (R292). -/
theorem ordinary_loadMultiple {o : BdtOps} {s t : State} (hs : o.s ≠ 1) (e : loadMultiple o s = .next t) : Ordinary s t := by
  unfold loadMultiple at e
  refine ordinary_bind e (fun _ _ => ordinary_loadList _ _ _ _ _) fun q u e => ?_
  refine ordinary_bind' e (fun _ e => ordinary_if e ordinary_writeReg ordinary_next) fun u e => ?_
  dsimp only at e
  split at e
  · exact (ordinary_writeList _ _ _).trans (ordinary_if e ordinary_writeReg ordinary_next)
  · simp only [hs, if_false] at e
    exact (ordinary_writeList _ _ _).trans (ordinary_bind' e (fun _ => ordinary_loadPc) fun _ e => ordinary_if e ordinary_writeReg ordinary_next)

theorem ordinary_storeMultiple {o : BdtOps} {s t : State} (e : storeMultiple o s = .next t) : Ordinary s t := by
  unfold storeMultiple at e
  exact ordinary_bind' e (fun _ => ordinary_storeList _ _ _ _) fun _ e => ordinary_if e ordinary_writeReg ordinary_next

theorem bit_ne_one {b : BitVec 1} (h : (b == 1) = false) : b ≠ 1 := by simpa using h

theorem low_ne15 (i : BitVec 3) : low i ≠ 15 := by revert i; decide

theorem ordinary_thumbAlu {rd : BitVec 3} {a : Alu} {s t : State} (e : thumbAlu rd a s = .next t) : Ordinary s t := by
  cases e; exact (ordinary_setX _ _ _ (low_ne15 _)).trans (ordinary_setFlags _ _)
theorem ordinary_thumbCompare {a : Alu} {s t : State} (e : thumbCompare a s = .next t) : Ordinary s t := by
  cases e; exact ordinary_setFlags _ _
theorem ordinary_thumbLoad {get : Word → State → Res (Word × State)} {rd : BitVec 3} {a : Word} {s t : State}
    (hg : GetOrdinary get) (e : thumbLoad get rd a s = .next t) : Ordinary s t :=
  ordinary_bind e (fun _ _ h => hg _ _ _ _ h) fun _ _ h => by cases h; exact ordinary_setX _ _ _ (low_ne15 _)

theorem ordinary_cp15Read (a b : BitVec 4) (c : BitVec 3) (s : State) : Ordinary s (cp15Read a b c s).2 := by
  unfold cp15Read
  split; exact .refl _
  split; exact .refl _
  split; exact .refl _
  exact (busKept_draw s).ordinary

theorem ordinary_cp15Write (a b : BitVec 4) (c : BitVec 3) (v : Word) (s : State) : Ordinary s (cp15Write a b c v s) := by
  unfold cp15Write rebuildA9
  split; exact ((busKept_ctl _ _).trans (busKept_updateMemoryMap _ _ _ _)).ordinary
  split; exact ((busKept_ctl _ _).trans (busKept_updateMemoryMap _ _ _ _)).ordinary
  split; exact ((busKept_ctl _ _).trans (busKept_updateMemoryMap _ _ _ _)).ordinary
  split; exact (busKept_halt _ _).ordinary
  exact .refl _


theorem ordinary_blxLabel {o : BlxLabelOps} {s t : State} (e : execBlxLabel o s = .next t) : Ordinary s t := by
  unfold execBlxLabel at e
  split at e
  · exact ordinary_next e
  · dsimp only at e
    exact (ordinary_setX _ _ _ (by decide)).trans (branchTo_setT_spec e).2.2.2

theorem ordinary_blxSuffix {o : TBranchOps} {s t : State}
    (e : (let target := (s.x 14 + (o.offset.setWidth 32 <<< 1)) &&& 0xFFFFFFFC
     let t := s.setX 14 ((s.x 15 - 2) ||| 1)
     branchTo target (t.setCur (t.cur.setT false))) = .next t) : Ordinary s t :=
  (ordinary_setX _ _ _ (by decide)).trans (branchTo_setT_spec e).2.2.2

theorem ordinary_mrs {o : MrsOps} {s t : State}
    (e : (if o.r = 0 then writeReg o.rd s.cur.cpsr s else Res.bind (readSpsr s) fun v => writeReg o.rd v s) = .next t) :
    Ordinary s t := by
  split at e
  · exact ordinary_writeReg e
  · obtain ⟨v, -, e⟩ := bind_eq_next.1 e
    exact ordinary_writeReg e

theorem ordinary_mrc {o : CoprocOps} {s t : State}
    (e : (let r := cp15Read o.crn o.crm o.op2 s
     (.next (if o.rd = 15 then r.2.setFlags (mrcFlags r.1) else r.2.setX o.rd r.1) : Res State)) = .next t) : Ordinary s t := by
  cases e
  refine (ordinary_cp15Read o.crn o.crm o.op2 s).trans ?_
  split
  · exact ordinary_setFlags _ _
  · exact ordinary_setX _ _ _ ‹_›

theorem ordinary_push {o : TPushPopOps} {s t : State} (e : push o s = .next t) : Ordinary s t := by
  unfold push at e
  exact ordinary_bind' e (fun _ => ordinary_storeList _ _ _ _) fun _ e => by cases e; exact ordinary_setX _ _ _ (by decide)

theorem ordinary_pop {o : TPushPopOps} {s t : State} (e : pop o s = .next t) : Ordinary s t := by
  unfold pop at e
  refine ordinary_bind e (fun _ _ => ordinary_loadList _ _ _ _ _) fun q u e => ?_
  dsimp only at e
  refine ((ordinary_writeList false q u).trans (ordinary_setX _ 13 (blockWriteBack 1 (s.x 13) (popRegs s.running o).2) (by decide))).trans ?_
  split at e
  · exact ordinary_next e
  · exact ordinary_loadPc e

theorem ordinary_thumbLoadMultiple {o : TBlockOps} {s t : State} (e : thumbLoadMultiple o s = .next t) : Ordinary s t := by
  unfold thumbLoadMultiple at e
  refine ordinary_bind e (fun _ _ => ordinary_loadList _ _ _ _ _) fun q u e => ?_
  dsimp only at e
  have h1 : Ordinary u (if o.rlist.getLsbD o.rb.toNat = true then u
      else u.setX (low o.rb) (blockWriteBack 1 (s.x (low o.rb)) (transferRegs s.running (o.rlist.setWidth 16)).2)) := by
    split
    · exact .refl _
    · exact ordinary_setX _ _ _ (low_ne15 _)
  refine (h1.trans (ordinary_writeList false q _)).trans ?_
  split at e
  · exact ordinary_next e
  · exact ordinary_loadPc e

end Sys2Proof.Machine
end

