-- ==== Sys2Proof/Laws/Invariant.lean ====
section
/-! SUPPORT. The invariant through the operations that change the mode, and through the run loop's own parts. -/

namespace Sys2Proof.Machine

theorem inv_dpWrite {h : DpHead} {a : Alu} {s t : State} (hi : s.Inv) (e : dpWrite h a s = .next t) : t.Inv := by
  by_cases hn : (h.rd == 15 && h.s == 1) = true
  · simp only [Bool.and_eq_true, beq_iff_eq] at hn
    unfold dpWrite at e
    rw [if_pos hn.1, if_neg (by rw [hn.2]; decide)] at e
    exact inv_returnFromException hi e
  · exact (ordinary_dpWrite (by simpa using hn) e).inv hi

theorem inv_conditional {cond : BitVec 4} {s t : State} {body : Res State} (hi : s.Inv) (h : conditional cond s body = .next t)
    (hb : body = .next t → t.Inv) : t.Inv := by
  unfold conditional at h
  split at h
  · exact hb h
  · cases h; exact hi

theorem t_merge (old mask v : Word) (h : mask.getLsbD 5 = false) : (merge old mask v).getLsbD 5 = old.getLsbD 5 := by
  unfold merge
  rw [BitVec.getLsbD_or, BitVec.getLsbD_and, BitVec.getLsbD_and, BitVec.getLsbD_not]
  simp_all

theorem inv_msrCpsr {f : BitVec 4} {v : Word} {s t : State} (hi : s.Inv) (e : msrCpsr f v s = .next t) : t.Inv := by
  refine inv_writeCpsr hi ?_ e
  unfold CoreState.t
  refine t_merge _ _ _ ?_
  unfold cpsrMask
  rw [BitVec.getLsbD_and]
  simp

theorem inv_msrSpsr {f : BitVec 4} {v : Word} {s t : State} (hi : s.Inv) (e : msrSpsr f v s = .next t) : t.Inv := by
  obtain ⟨x, -, e⟩ := bind_eq_next.1 e
  exact inv_writeSpsr hi e

theorem inv_loadMultiple {o : BdtOps} {s t : State} (hi : s.Inv) (e : loadMultiple o s = .next t) : t.Inv := by
  by_cases hs : o.s = 1
  · unfold loadMultiple at e
    obtain ⟨⟨q, u⟩, h1, e⟩ := bind_eq_next.1 e
    have i1 := (ordinary_loadList _ _ _ _ _ h1).inv hi
    obtain ⟨u2, h2, e⟩ := bind_eq_next.1 e
    have i2 := (ordinary_if h2 ordinary_writeReg ordinary_next).inv i1
    dsimp only at e
    split at e
    · exact (ordinary_if e ordinary_writeReg ordinary_next).inv ((ordinary_writeList _ _ _).inv i2)
    · rw [if_pos hs] at e
      obtain ⟨u3, h3, e⟩ := bind_eq_next.1 e
      exact inv_returnFromException ((ordinary_if h3 ordinary_writeReg ordinary_next).inv ((ordinary_writeList _ _ _).inv i2)) e
  · exact (ordinary_loadMultiple hs e).inv hi

theorem inv_advance (s : State) (b : Bool) (hi : s.Inv) (h : s.branched = true ∨ s.cur.t = b) :
    (advance (if b then 2 else 4) s).Inv := by
  unfold advance
  split
  · exact hi
  · next hb =>
    have ht : s.cur.t = b := h.resolve_left hb
    have hk : s.cur.Inv := cores_inv hi s.running
    refine inv_setCur hi ⟨hk.mode, hk.latch, ?_, hk.pipe⟩
    have hp := hk.pc
    unfold CoreState.PcAligned CoreState.pc at *
    have : (s.cur.setReg 15 (s.x 15 + if b = true then 2 else 4)).t = b := ht
    rw [this, reg_setReg_same]
    rw [ht] at hp
    exact aligned_add_step _ _ hp

theorem inv_prefetch {s t : State} (hi : s.Inv) (h : prefetch (if s.cur.t then .w16 else .w32) s = .next t) :
    t.Inv ∧ t.cur.t = s.cur.t := by
  unfold prefetch at h
  obtain ⟨⟨v, u⟩, h1, h⟩ := bind_eq_next.1 h
  have i0 : (s.setPipe s.cur.pipe1 s.cur.pipe1).Inv := by
    have hk : s.cur.Inv := cores_inv hi s.running
    exact inv_setCur hi ⟨hk.mode, hk.latch, hk.pc, fun ht => ⟨(hk.pipe ht).2, (hk.pipe ht).2⟩⟩
  have k := load_keeps h1
  have i1 := (ordinary_load h1).inv i0
  have hk : u.cur.Inv := cores_inv i1 u.running
  have hut : u.cur.t = s.cur.t := by unfold CoreState.t; rw [k.cur.cpsr]; simp
  have e : (u.setPipe u.cur.pipe0 v).Inv := inv_setCur i1 ⟨hk.mode, hk.latch, hk.pc, fun ht => ⟨(hk.pipe ht).1, by
      have : s.cur.t = true := by rw [← hut]; exact ht
      rw [if_pos this] at h1
      exact load16_lt h1⟩⟩
  simp only [Host.Outcome.next.injEq] at h
  subst h
  refine ⟨⟨e.a7, e.a9, e.memory, e.fields, e.queue, e.handles⟩, ?_⟩
  show (u.setPipe u.cur.pipe0 v).cur.t = _
  simpa [CoreState.t] using hut

theorem inv_congr {s : State} (c : CoreId) (b : Bool) (o : List OwnerCall) (hi : s.Inv) :
    ({ s with running := c, branched := b, owner := o } : State).Inv :=
  ⟨hi.a7, hi.a9, hi.memory, hi.fields, hi.queue, hi.handles⟩

theorem inv_setCore {s : State} {c : CoreId} {k : CoreState} (h : s.Inv) (hk : k.Inv) : (s.setCore c k).Inv := by
  have all : ∀ d, ((s.setCore c k).core d).Inv := fun d => by
    by_cases hd : d = c
    · subst hd; simpa using hk
    · rw [core_setCore_ne s c d k hd]; exact cores_inv h d
  exact ⟨all .a7, all .a9, by simpa using h.memory, by simpa using h.fields,
    by simpa [State.QueueAscending] using h.queue, by simpa [State.HandlesFresh] using h.handles⟩

theorem inv_reset : CoreState.cleared.Inv := by
  exact ⟨by unfold CoreState.ModeLegal; decide, rfl, by unfold CoreState.PcAligned; decide, fun h => absurd h (by decide)⟩

theorem inv_pop {s : State} (hi : s.Inv) : s.pop.Inv := ⟨hi.a7, hi.a9, hi.memory, hi.fields, hi.queue, hi.handles⟩

theorem inv_resetCore (c : CoreId) {s : State} (hi : s.Inv) : (resetCore c s).Inv := by
  have hr : ∀ k : CoreState, k.resetCore.Inv := fun k => ⟨inv_reset.mode, inv_reset.latch, inv_reset.pc, inv_reset.pipe⟩
  unfold resetCore
  cases c
  · exact inv_setCore hi (hr _)
  · have i1 : ((s.setCore .a9 (s.core .a9).resetCore)).Inv := inv_setCore hi (hr _)
    exact ((busKept_ctl _ _).trans (busKept_updateMemoryMap _ _ _ _)).ordinary.inv i1

theorem inv_switchMode {m : Word} {s t : State} (hi : s.Inv) (h : switchMode m s = .next t) : t.Inv := by
  obtain ⟨new, hn, rfl⟩ := switchMode_spec h
  have hk : s.cur.Inv := cores_inv hi s.running
  obtain ⟨f1, f2, f3, f4, f5, f6, f7, f8, f9, f10, f11⟩ := swapBanks_frame s.cur.bank new s.cur
  have ht : ((swapBanks s.cur.bank new s.cur).setMode (m.extractLsb' 0 5)).t = s.cur.t := by
    unfold CoreState.t
    rw [cpsr_setMode, f1]
    simp
  have fl := flow_keep ht f3 f4 (reg_swapBanks s.cur.bank new s.cur 15 (.inr rfl)) hk.pc hk.pipe
  refine inv_setCur hi ⟨?_, ?_, fl.1, fl.2⟩
  · unfold CoreState.ModeLegal; rw [mode_setMode, hn]; rfl
  · have := hk.latch
    unfold CoreState.LatchExact at *
    simpa [f7, f8, f9, f10] using this

theorem inv_setX {s : State} (i : BitVec 4) (v : Word) (h : i ≠ 15) (hi : s.Inv) : (s.setX i v).Inv := (ordinary_setX s i v h).inv hi

theorem inv_directBoot {c : CoreId} {e : Word} {s t : State} (hi : s.Inv) (h : directBoot c e s = .next t) : t.Inv := by
  unfold directBoot at h
  have i0 : ({ s with running := c } : State).Inv := ⟨hi.a7, hi.a9, hi.memory, hi.fields, hi.queue, hi.handles⟩
  obtain ⟨u, h1, h⟩ := bind_eq_next.1 h
  have i1 := inv_switchMode (inv_setX _ _ (by decide) i0) h1
  obtain ⟨v, h2, h⟩ := bind_eq_next.1 h
  have i2 := inv_switchMode (inv_setX _ _ (by decide) i1) h2
  dsimp only at h
  have i3 := inv_setX 13 (s.par.bootSpSys.get c) (by decide) i2
  have i4 := inv_setX 12 e (by decide) i3
  have i5 := inv_setX 14 e (by decide) i4
  generalize ((v.setX 13 (s.par.bootSpSys.get c)).setX 12 e).setX 14 e = w at h i5
  have hk : w.cur.Inv := cores_inv i5 w.running
  refine inv_branchTo i5 ?_ ?_ h
  · exact hk.mode
  · exact hk.latch

theorem inv_loadBytes (c : CoreId) (bs : List Byte) : ∀ a s t, s.Inv → loadBytes c a bs s = .next t → t.Inv := by
  induction bs with
  | nil => intro a s t hi h; cases h; exact hi
  | cons b rest ih =>
    intro a s t hi h
    obtain ⟨u, h1, h⟩ := bind_eq_next.1 h
    exact ih _ _ _ ((memWrite_keeps _ _ _ _ _ _ h1).ordinary.inv hi) h

/-- One iteration of the run loop keeps the invariant if a step of the core does. -/
theorem inv_runOnce {c : CoreId} {d : Dword} {s t : State} (hc : ∀ u v, u.Inv → coreStep u = .next v → v.Inv) (hi : s.Inv)
    (h : runOnce c d s = .next t) : t.Inv := by
  unfold runOnce at h
  dsimp only at h
  split at h
  · cases h; exact inv_pop hi
  · split at h
    · cases h; exact inv_pop hi
    · split at h
      · cases h
        have hk := cores_inv hi c
        exact inv_pop (inv_setCore hi ⟨hk.mode, hk.latch, hk.pc, hk.pipe⟩)
      · obtain ⟨u, h1, h⟩ := bind_eq_next.1 h
        have i0 : ({ s with running := c } : State).Inv := ⟨hi.a7, hi.a9, hi.memory, hi.fields, hi.queue, hi.handles⟩
        refine hc _ _ ?_ h
        unfold boundary at h1
        split at h1
        · exact inv_enterException i0 h1
        · cases h1; exact i0

theorem inv_fireOne {s t : State} (hi : s.Inv) (h : fireOne s = .next t) : t.Inv := by
  unfold fireOne at h
  split at h
  · cases h; exact inv_pop hi
  · next tt id rest hq =>
    split at h
    · cases h; exact inv_pop hi
    · split at h
      · cases h
      · refine (runScript_keeps _ _ _ h).ordinary.inv ⟨hi.a7, hi.a9, hi.memory, hi.fields, ?_, hi.handles⟩
        have := hi.queue
        unfold State.QueueAscending at *
        rw [hq] at this
        exact this.tail

end Sys2Proof.Machine
end

