-- ==== Sys2Proof/Laws/Frames.lean ====
section
/-! SUPPORT. The frames of a register write, a flag write and a refilled pipeline, and how frames compose. -/

namespace Sys2Proof.Machine

theorem Kept.refl (s : State) : Kept s s := by constructor <;> first | rfl | exact fun _ _ => rfl

theorem kept_setX (s : State) (i : BitVec 4) (v : Word) : Kept s (s.setX i v) := by
  constructor <;> first | (intro c hc; simp [hc]) | simp

theorem kept_setFlags (s : State) (f : Flags) : Kept s (s.setFlags f) := by
  constructor <;> first | (intro c hc; simp [hc]) | simp [CoreState.setFlags]

theorem Kept.trans {s t u : State} (a : Kept s t) (b : Kept t u) : Kept s u := by
  have hr := a.running
  constructor
  all_goals first
    | (intro c hc; rw [b.other c (by rw [hr]; exact hc), a.other c hc])
    | exact b.running.trans a.running
    | exact b.par.trans a.par
    | exact b.ctl.trans a.ctl
    | exact b.fields.trans a.fields
    | exact b.currentTime.trans a.currentTime
    | exact b.queue.trans a.queue
    | exact b.events.trans a.events
    | exact b.nextId.trans a.nextId
    | exact b.fault.trans a.fault
    | exact b.owner.trans a.owner
    | exact b.freeCount.trans a.freeCount
    | exact b.bankR13.trans a.bankR13
    | exact b.bankR14.trans a.bankR14
    | exact b.fiqR8.trans a.fiqR8
    | exact b.nonfiqR8.trans a.nonfiqR8
    | exact b.spsr.trans a.spsr
    | exact b.halted.trans a.halted
    | exact b.timestamp.trans a.timestamp
    | exact b.ime.trans a.ime
    | exact b.ie.trans a.ie
    | exact b.ifl.trans a.ifl
    | exact b.irqLatch.trans a.irqLatch
    | exact b.booted.trans a.booted
    | exact b.unknownLog.trans a.unknownLog
    | exact b.pageTable.trans a.pageTable
    | exact b.mmio.trans a.mmio

theorem frame_setX (s : State) (i : BitVec 4) (v : Word) : Frame [i] 0 s (s.setX i v) where
  kept := kept_setX s i v
  regs := fun j hj => x_setX_ne _ _ _ _ (by simpa using hj)
  status := by simp [StatusKept, CoreState.setReg]
  pipe := by simp [PipeKept, CoreState.setReg]
  memory := fun _ _ => by simp [State.byteAt]

theorem statusKept_setFlags (s : State) (f : Flags) : StatusKept nzcvMask s (s.setFlags f) := by
  unfold StatusKept
  simp only [cur_setFlags, CoreState.setFlags]
  apply BitVec.eq_of_getLsbD_eq
  intro j hj
  simp only [BitVec.getLsbD_and, getLsbD_setFlags]
  have : ∀ j < 32, (~~~nzcvMask : Word).getLsbD j = decide (j < 28) := by decide
  rw [this j hj]
  by_cases h : j < 28 <;> simp [h]
  have : j ≠ 31 ∧ j ≠ 30 ∧ j ≠ 29 ∧ j ≠ 28 := by omega
  simp [this]

theorem frame_setFlags (s : State) (f : Flags) : Frame [] nzcvMask s (s.setFlags f) where
  kept := kept_setFlags s f
  regs := fun j _ => x_setFlags _ _ _
  status := statusKept_setFlags s f
  pipe := by simp [PipeKept, CoreState.setFlags]
  memory := fun _ _ => by simp [State.byteAt]

theorem flags_setFlags (s : State) (f : Flags) : (s.setFlags f).cur.flags = f := by
  simp [CoreState.flags]

theorem statusKept_mono {s t : State} {m n : Word} (h : StatusKept m s t) (hm : m &&& ~~~n = 0) : StatusKept n s t := by
  unfold StatusKept at *
  have e : ∀ w : Word, w &&& ~~~n = (w &&& ~~~m) &&& ~~~n := by
    intro w
    apply BitVec.eq_of_getLsbD_eq
    intro j hj
    have := congrArg (·.getLsbD j) hm
    simp [hj] at this
    simp [hj]
    cases h1 : w.getLsbD j <;> cases h2 : m.getLsbD j <;> cases h3 : n.getLsbD j <;> simp_all
  rw [e, h, ← e]

theorem mask_left (m n : Word) : m &&& ~~~(m ||| n) = 0 := by
  apply BitVec.eq_of_getLsbD_eq
  intro j hj
  simp only [BitVec.getLsbD_and, BitVec.getLsbD_not, BitVec.getLsbD_or, hj]
  cases m.getLsbD j <;> simp

theorem mask_right (m n : Word) : n &&& ~~~(m ||| n) = 0 := by rw [BitVec.or_comm]; exact mask_left n m

theorem Frame.trans {r r' : List (BitVec 4)} {m m' : Word} {s t u : State} (a : Frame r m s t) (b : Frame r' m' t u) :
    Frame (r ++ r') (m ||| m') s u where
  kept := a.kept.trans b.kept
  regs := fun j hj => by
    simp only [List.mem_append, not_or] at hj
    rw [b.regs j hj.2, a.regs j hj.1]
  status := by
    exact Eq.trans (statusKept_mono b.status (mask_right m m')) (statusKept_mono a.status (mask_left m m'))
  pipe := ⟨b.pipe.1.trans a.pipe.1, b.pipe.2.1.trans a.pipe.2.1, b.pipe.2.2.trans a.pipe.2.2⟩
  memory := fun x o => (b.memory x o).trans (a.memory x o)

theorem kept_setPipe (s : State) (p q : Word) : Kept s (s.setPipe p q) := by
  constructor <;> first | (intro c hc; simp [hc]) | simp

theorem kept_refilled (th : Bool) (target p0 p1 : Word) (s : State) : Kept s (s.refilled th target p0 p1) :=
  have h := (kept_setPipe s p0 p1).trans
    (kept_setX (s.setPipe p0 p1) 15 (fetchAddr th target + fetchStep th + fetchStep th))
  ⟨h.running, h.other, h.par, h.ctl, h.fields, h.currentTime, h.queue, h.events, h.nextId, h.fault, h.owner, h.freeCount, h.bankR13,
    h.bankR14, h.fiqR8, h.nonfiqR8, h.spsr, h.halted, h.timestamp, h.ime, h.ie, h.ifl, h.irqLatch, h.booted, h.unknownLog,
    h.pageTable, h.mmio⟩

theorem cur_refilled (th : Bool) (target p0 p1 : Word) (s : State) : (s.refilled th target p0 p1).cur =
    ({ s.cur with pipe0 := p0, pipe1 := p1 } : CoreState).setReg 15 (fetchAddr th target + fetchStep th + fetchStep th) := by
  have : (s.refilled th target p0 p1).cur = ((s.setPipe p0 p1).setX 15 (fetchAddr th target + fetchStep th + fetchStep th)).cur := rfl
  rw [this, cur_setX, cur_setPipe]

theorem jumpedTo_refilled (th : Bool) (target p0 p1 : Word) (s : State) (h : s.cur.t = th) :
    JumpedTo th target p0 p1 (s.refilled th target p0 p1) := by
  refine ⟨?_, ?_, ?_, ?_, rfl⟩
  · show (s.refilled th target p0 p1).cur.reg 15 = _
    rw [cur_refilled]; simp
  all_goals rw [cur_refilled]
  · rfl
  · rfl
  · exact h

theorem x_refilled (th : Bool) (target p0 p1 : Word) (s : State) (i : BitVec 4) (h : i ≠ 15) :
    (s.refilled th target p0 p1).x i = s.x i := by
  show (s.refilled th target p0 p1).cur.reg i = _
  rw [cur_refilled, reg_setReg_ne _ _ _ _ h]; rfl

theorem jumpFrame_refilled (th : Bool) (target p0 p1 : Word) (s : State) : JumpFrame [] 0 s (s.refilled th target p0 p1) where
  kept := kept_refilled ..
  regs := fun j hj => x_refilled _ _ _ _ _ _ (by simpa using hj)
  status := by simp [StatusKept, cur_refilled, CoreState.setReg]
  memory := fun b o => by
    have : (s.refilled th target p0 p1).buf = s.buf := by simp [State.refilled]
    simp [State.byteAt, this]

theorem flags_refilled (th : Bool) (target p0 p1 : Word) (s : State) : (s.refilled th target p0 p1).cur.flags = s.cur.flags ∧ (s.refilled th target p0 p1).cur.q = s.cur.q := by
  rw [cur_refilled]; exact ⟨rfl, rfl⟩

theorem Frame.jump {r r' : List (BitVec 4)} {m m' : Word} {s t u : State} (a : Frame r m s t) (b : JumpFrame r' m' t u) :
    JumpFrame (r ++ r') (m ||| m') s u where
  kept := a.kept.trans b.kept
  regs := fun j hj => by
    simp only [List.mem_cons, List.mem_append, not_or] at hj
    rw [b.regs j (by simp only [List.mem_cons, not_or]; exact ⟨hj.1, hj.2.2⟩), a.regs j hj.2.1]
  status := by
    exact Eq.trans (statusKept_mono b.status (mask_right m m')) (statusKept_mono a.status (mask_left m m'))
  memory := fun x o => (b.memory x o).trans (a.memory x o)
end Sys2Proof.Machine
end

