-- ==== Sys2Proof/Laws/Alu.lean ====
section
/-! SUPPORT. `AddWithCarry` in exact integers (spec/41_data_processing.md R210). -/

namespace Sys2Proof.Machine

/-- A sum: the carry is the unsigned overflow, V the signed one. -/
theorem alu_sum (a b : Word) (c : Bool) : addWithCarry a b c = { result := sumWord a b c, flags := sumFlags a b c } := by
  have hr : BitVec.ofNat 32 (a.toNat + b.toNat + c.toNat) = sumWord a b c := by
    apply BitVec.eq_of_toNat_eq
    cases c <;> simp [sumWord]
  simp only [addWithCarry, sumFlags, hr]
  congr 2
  have hab : ∀ w : Word, w.toInt = (if w.getLsbD 31 then (w.toNat : Int) - 2^32 else (w.toNat : Int)) := by
    intro w
    rw [BitVec.toInt_eq_msb_cond]
    simp [BitVec.msb_eq_getLsbD_last]
  have hb : ∀ w : Word, w.getLsbD 31 = decide (2^31 ≤ w.toNat) := by
    intro w
    have := BitVec.msb_eq_decide w
    rw [← this, BitVec.msb_eq_getLsbD_last]
  have hs : (sumWord a b c).toNat = (a.toNat + b.toNat + c.toNat) % 2^32 := by rw [← hr]; simp
  have : (~~~(a ^^^ b) &&& (a ^^^ sumWord a b c)).getLsbD 31 =
     ((a.getLsbD 31 == b.getLsbD 31) && (a.getLsbD 31 != (sumWord a b c).getLsbD 31)) := by
    simp only [BitVec.getLsbD_and, BitVec.getLsbD_not, BitVec.getLsbD_xor]
    cases a.getLsbD 31 <;> cases b.getLsbD 31 <;> cases (sumWord a b c).getLsbD 31 <;> rfl
  rw [this, hab a, hab b, hb, hb, hb, hs]
  have ha := a.isLt
  have hbb := b.isLt
  have hc : c.toNat ≤ 1 := by cases c <;> simp
  unfold outOfRange
  by_cases h1 : 2147483648 ≤ a.toNat <;> by_cases h2 : 2147483648 ≤ b.toNat <;>
    by_cases h3 : 2147483648 ≤ (a.toNat + b.toNat + c.toNat) % 4294967296 <;>
    simp [h1, h2, h3] <;> omega

/-- A difference: the carry is no borrow. -/
theorem alu_diff (a b : Word) (c : Bool) :
    addWithCarry a (~~~b) c = { result := diffWord a b c, flags := diffFlags a b c } := by
  have hn : (~~~b).toNat = 2^32 - 1 - b.toNat := by simp
  have hw : sumWord a (~~~b) c = diffWord a b c := by
    unfold sumWord diffWord
    rw [BitVec.not_eq_neg_add]
    cases c <;> simp <;> bv_omega
  rw [alu_sum]
  unfold sumFlags diffFlags
  rw [hw]
  have hi : (~~~b).toInt = -1 - b.toInt := by
    have h1 := BitVec.toInt_eq_toNat_cond b
    have h2 := BitVec.toInt_eq_toNat_cond (~~~b)
    have := b.isLt
    rw [hn] at h2
    rw [h1, h2]
    split <;> split <;> omega
  dsimp only
  congr 2
  · rw [hn]
    have := b.isLt
    have := a.isLt
    apply decide_eq_decide.mpr
    cases c <;> simp only [Bool.toNat_true, Bool.toNat_false, Bool.not_true, Bool.not_false] <;> omega
  · rw [hi]
    congr 1
    cases c <;> simp only [Bool.toNat_true, Bool.toNat_false, Bool.not_true, Bool.not_false] <;> omega
end Sys2Proof.Machine
end

