-- ==== Sys2Proof/Laws/PerInstr.lean ====
section
/-! SUPPORT. The per-instruction family `Coding` (LAWS.json): the rows of the opcode table from 120 on, and no others, are
encoded as half-words (spec/30_encoding.md R130, R150). -/

namespace Sys2Proof.Laws.Coding

/-- The code is a Thumb half-word. -/
def isHalf : Code → Bool
  | .arm _ => false
  | .thumb _ => true

/-- The instruction is one of rows 120 to 187. -/
def isThumbRow : Instr → Bool
  | .andImm _ _ => false
  | .andShiftImm _ _ => false
  | .andShiftReg _ _ => false
  | .eorImm _ _ => false
  | .eorShiftImm _ _ => false
  | .eorShiftReg _ _ => false
  | .subImm _ _ => false
  | .subShiftImm _ _ => false
  | .subShiftReg _ _ => false
  | .rsbImm _ _ => false
  | .rsbShiftImm _ _ => false
  | .rsbShiftReg _ _ => false
  | .addImm _ _ => false
  | .addShiftImm _ _ => false
  | .addShiftReg _ _ => false
  | .adcImm _ _ => false
  | .adcShiftImm _ _ => false
  | .adcShiftReg _ _ => false
  | .sbcImm _ _ => false
  | .sbcShiftImm _ _ => false
  | .sbcShiftReg _ _ => false
  | .rscImm _ _ => false
  | .rscShiftImm _ _ => false
  | .rscShiftReg _ _ => false
  | .tstImm _ _ => false
  | .tstShiftImm _ _ => false
  | .tstShiftReg _ _ => false
  | .teqImm _ _ => false
  | .teqShiftImm _ _ => false
  | .teqShiftReg _ _ => false
  | .cmpImm _ _ => false
  | .cmpShiftImm _ _ => false
  | .cmpShiftReg _ _ => false
  | .cmnImm _ _ => false
  | .cmnShiftImm _ _ => false
  | .cmnShiftReg _ _ => false
  | .orrImm _ _ => false
  | .orrShiftImm _ _ => false
  | .orrShiftReg _ _ => false
  | .movImm _ _ => false
  | .movShiftImm _ _ => false
  | .movShiftReg _ _ => false
  | .bicImm _ _ => false
  | .bicShiftImm _ _ => false
  | .bicShiftReg _ _ => false
  | .mvnImm _ _ => false
  | .mvnShiftImm _ _ => false
  | .mvnShiftReg _ _ => false
  | .mul _ => false
  | .mla _ => false
  | .umull _ => false
  | .umlal _ => false
  | .smull _ => false
  | .smlal _ => false
  | .swp _ => false
  | .swpb _ => false
  | .strhReg _ => false
  | .strhImm _ => false
  | .ldrhReg _ => false
  | .ldrhImm _ => false
  | .ldrsbReg _ => false
  | .ldrsbImm _ => false
  | .ldrshReg _ => false
  | .ldrshImm _ => false
  | .ldrdReg _ => false
  | .ldrdImm _ => false
  | .strdReg _ => false
  | .strdImm _ => false
  | .unkDoubleA7 _ => false
  | .mrs _ => false
  | .msrCpsrReg _ => false
  | .msrSpsrReg _ => false
  | .msrCpsrImm _ => false
  | .msrSpsrImm _ => false
  | .bx _ => false
  | .blxReg _ => false
  | .bkpt _ => false
  | .clz _ => false
  | .qadd _ => false
  | .qsub _ => false
  | .qdadd _ => false
  | .qdsub _ => false
  | .smlaXy _ => false
  | .smlawY _ => false
  | .smulwY _ => false
  | .smlalXy _ => false
  | .smulXy _ => false
  | .strImm _ => false
  | .strReg _ => false
  | .ldrImm _ => false
  | .ldrReg _ => false
  | .strbImm _ => false
  | .strbReg _ => false
  | .ldrbImm _ => false
  | .ldrbReg _ => false
  | .strtImm _ => false
  | .strtReg _ => false
  | .ldrtImm _ => false
  | .ldrtReg _ => false
  | .strbtImm _ => false
  | .strbtReg _ => false
  | .ldrbtImm _ => false
  | .ldrbtReg _ => false
  | .stm _ => false
  | .ldm _ => false
  | .b _ => false
  | .bl _ => false
  | .blxLabel _ => false
  | .pld _ => false
  | .mrc _ => false
  | .mcr _ => false
  | .coprocOther _ => false
  | .swi _ => false
  | .unkMiscA _ => false
  | .unkMiscB _ => false
  | .unkImm _ => false
  | .unk1001 _ => false
  | .unkMedia _ => false
  | .unkLdcStc _ => false
  | .unkCdp _ => false
  | .tLslImm _ => true
  | .tLsrImm _ => true
  | .tAsrImm _ => true
  | .tAddReg _ => true
  | .tSubReg _ => true
  | .tAddImm3 _ => true
  | .tSubImm3 _ => true
  | .tMovImm8 _ => true
  | .tCmpImm8 _ => true
  | .tAddImm8 _ => true
  | .tSubImm8 _ => true
  | .tAnd _ => true
  | .tEor _ => true
  | .tLslReg _ => true
  | .tLsrReg _ => true
  | .tAsrReg _ => true
  | .tAdc _ => true
  | .tSbc _ => true
  | .tRorReg _ => true
  | .tTst _ => true
  | .tNeg _ => true
  | .tCmpReg _ => true
  | .tCmn _ => true
  | .tOrr _ => true
  | .tMul _ => true
  | .tBic _ => true
  | .tMvn _ => true
  | .tAddHi _ => true
  | .tCmpHi _ => true
  | .tMovHi _ => true
  | .tBx _ => true
  | .tBlxReg _ => true
  | .tBxH1 _ => true
  | .tLdrPc _ => true
  | .tStrReg _ => true
  | .tStrbReg _ => true
  | .tLdrReg _ => true
  | .tLdrbReg _ => true
  | .tStrhReg _ => true
  | .tLdsbReg _ => true
  | .tLdrhReg _ => true
  | .tLdshReg _ => true
  | .tStrImm _ => true
  | .tLdrImm _ => true
  | .tStrbImm _ => true
  | .tLdrbImm _ => true
  | .tStrhImm _ => true
  | .tLdrhImm _ => true
  | .tStrSp _ => true
  | .tLdrSp _ => true
  | .tAddPc _ => true
  | .tAddSp _ => true
  | .tIncSp _ => true
  | .tDecSp _ => true
  | .tPush _ => true
  | .tPop _ => true
  | .tBkpt _ => true
  | .tUnk1011 _ => true
  | .tStmia _ => true
  | .tLdmia _ => true
  | .tBcond _ => true
  | .tUnkDe _ => true
  | .tSwi _ => true
  | .tB _ => true
  | .tBlPrefix _ => true
  | .tBlSuffix _ => true
  | .tBlxSuffix _ => true
  | .tUnk11101 _ => true

/-- A Thumb row is encoded as a half-word, an ARM row as a word. -/
def Statement (i : Instr) : Prop := isHalf (encode i) = isThumbRow i

theorem andImm (h : DpHead) (x : ImmOperand) : Statement (.andImm h x) := rfl
theorem andShiftImm (h : DpHead) (x : ShiftImmOperand) : Statement (.andShiftImm h x) := rfl
theorem andShiftReg (h : DpHead) (x : ShiftRegOperand) : Statement (.andShiftReg h x) := rfl
theorem eorImm (h : DpHead) (x : ImmOperand) : Statement (.eorImm h x) := rfl
theorem eorShiftImm (h : DpHead) (x : ShiftImmOperand) : Statement (.eorShiftImm h x) := rfl
theorem eorShiftReg (h : DpHead) (x : ShiftRegOperand) : Statement (.eorShiftReg h x) := rfl
theorem subImm (h : DpHead) (x : ImmOperand) : Statement (.subImm h x) := rfl
theorem subShiftImm (h : DpHead) (x : ShiftImmOperand) : Statement (.subShiftImm h x) := rfl
theorem subShiftReg (h : DpHead) (x : ShiftRegOperand) : Statement (.subShiftReg h x) := rfl
theorem rsbImm (h : DpHead) (x : ImmOperand) : Statement (.rsbImm h x) := rfl
theorem rsbShiftImm (h : DpHead) (x : ShiftImmOperand) : Statement (.rsbShiftImm h x) := rfl
theorem rsbShiftReg (h : DpHead) (x : ShiftRegOperand) : Statement (.rsbShiftReg h x) := rfl
theorem addImm (h : DpHead) (x : ImmOperand) : Statement (.addImm h x) := rfl
theorem addShiftImm (h : DpHead) (x : ShiftImmOperand) : Statement (.addShiftImm h x) := rfl
theorem addShiftReg (h : DpHead) (x : ShiftRegOperand) : Statement (.addShiftReg h x) := rfl
theorem adcImm (h : DpHead) (x : ImmOperand) : Statement (.adcImm h x) := rfl
theorem adcShiftImm (h : DpHead) (x : ShiftImmOperand) : Statement (.adcShiftImm h x) := rfl
theorem adcShiftReg (h : DpHead) (x : ShiftRegOperand) : Statement (.adcShiftReg h x) := rfl
theorem sbcImm (h : DpHead) (x : ImmOperand) : Statement (.sbcImm h x) := rfl
theorem sbcShiftImm (h : DpHead) (x : ShiftImmOperand) : Statement (.sbcShiftImm h x) := rfl
theorem sbcShiftReg (h : DpHead) (x : ShiftRegOperand) : Statement (.sbcShiftReg h x) := rfl
theorem rscImm (h : DpHead) (x : ImmOperand) : Statement (.rscImm h x) := rfl
theorem rscShiftImm (h : DpHead) (x : ShiftImmOperand) : Statement (.rscShiftImm h x) := rfl
theorem rscShiftReg (h : DpHead) (x : ShiftRegOperand) : Statement (.rscShiftReg h x) := rfl
theorem tstImm (h : CmpHead) (x : ImmOperand) : Statement (.tstImm h x) := rfl
theorem tstShiftImm (h : CmpHead) (x : ShiftImmOperand) : Statement (.tstShiftImm h x) := rfl
theorem tstShiftReg (h : CmpHead) (x : ShiftRegOperand) : Statement (.tstShiftReg h x) := rfl
theorem teqImm (h : CmpHead) (x : ImmOperand) : Statement (.teqImm h x) := rfl
theorem teqShiftImm (h : CmpHead) (x : ShiftImmOperand) : Statement (.teqShiftImm h x) := rfl
theorem teqShiftReg (h : CmpHead) (x : ShiftRegOperand) : Statement (.teqShiftReg h x) := rfl
theorem cmpImm (h : CmpHead) (x : ImmOperand) : Statement (.cmpImm h x) := rfl
theorem cmpShiftImm (h : CmpHead) (x : ShiftImmOperand) : Statement (.cmpShiftImm h x) := rfl
theorem cmpShiftReg (h : CmpHead) (x : ShiftRegOperand) : Statement (.cmpShiftReg h x) := rfl
theorem cmnImm (h : CmpHead) (x : ImmOperand) : Statement (.cmnImm h x) := rfl
theorem cmnShiftImm (h : CmpHead) (x : ShiftImmOperand) : Statement (.cmnShiftImm h x) := rfl
theorem cmnShiftReg (h : CmpHead) (x : ShiftRegOperand) : Statement (.cmnShiftReg h x) := rfl
theorem orrImm (h : DpHead) (x : ImmOperand) : Statement (.orrImm h x) := rfl
theorem orrShiftImm (h : DpHead) (x : ShiftImmOperand) : Statement (.orrShiftImm h x) := rfl
theorem orrShiftReg (h : DpHead) (x : ShiftRegOperand) : Statement (.orrShiftReg h x) := rfl
theorem movImm (h : DpHead) (x : ImmOperand) : Statement (.movImm h x) := rfl
theorem movShiftImm (h : DpHead) (x : ShiftImmOperand) : Statement (.movShiftImm h x) := rfl
theorem movShiftReg (h : DpHead) (x : ShiftRegOperand) : Statement (.movShiftReg h x) := rfl
theorem bicImm (h : DpHead) (x : ImmOperand) : Statement (.bicImm h x) := rfl
theorem bicShiftImm (h : DpHead) (x : ShiftImmOperand) : Statement (.bicShiftImm h x) := rfl
theorem bicShiftReg (h : DpHead) (x : ShiftRegOperand) : Statement (.bicShiftReg h x) := rfl
theorem mvnImm (h : DpHead) (x : ImmOperand) : Statement (.mvnImm h x) := rfl
theorem mvnShiftImm (h : DpHead) (x : ShiftImmOperand) : Statement (.mvnShiftImm h x) := rfl
theorem mvnShiftReg (h : DpHead) (x : ShiftRegOperand) : Statement (.mvnShiftReg h x) := rfl
theorem mul (o : MulOps) : Statement (.mul o) := rfl
theorem mla (o : MulOps) : Statement (.mla o) := rfl
theorem umull (o : MullOps) : Statement (.umull o) := rfl
theorem umlal (o : MullOps) : Statement (.umlal o) := rfl
theorem smull (o : MullOps) : Statement (.smull o) := rfl
theorem smlal (o : MullOps) : Statement (.smlal o) := rfl
theorem swp (o : SwpOps) : Statement (.swp o) := rfl
theorem swpb (o : SwpOps) : Statement (.swpb o) := rfl
theorem strhReg (o : HdtRegOps) : Statement (.strhReg o) := rfl
theorem strhImm (o : HdtImmOps) : Statement (.strhImm o) := rfl
theorem ldrhReg (o : HdtRegOps) : Statement (.ldrhReg o) := rfl
theorem ldrhImm (o : HdtImmOps) : Statement (.ldrhImm o) := rfl
theorem ldrsbReg (o : HdtRegOps) : Statement (.ldrsbReg o) := rfl
theorem ldrsbImm (o : HdtImmOps) : Statement (.ldrsbImm o) := rfl
theorem ldrshReg (o : HdtRegOps) : Statement (.ldrshReg o) := rfl
theorem ldrshImm (o : HdtImmOps) : Statement (.ldrshImm o) := rfl
theorem ldrdReg (o : HdtRegOps) : Statement (.ldrdReg o) := rfl
theorem ldrdImm (o : HdtImmOps) : Statement (.ldrdImm o) := rfl
theorem strdReg (o : HdtRegOps) : Statement (.strdReg o) := rfl
theorem strdImm (o : HdtImmOps) : Statement (.strdImm o) := rfl
theorem unkDoubleA7 (word : Word) : Statement (.unkDoubleA7 word) := rfl
theorem mrs (o : MrsOps) : Statement (.mrs o) := rfl
theorem msrCpsrReg (o : MsrRegOps) : Statement (.msrCpsrReg o) := rfl
theorem msrSpsrReg (o : MsrRegOps) : Statement (.msrSpsrReg o) := rfl
theorem msrCpsrImm (o : MsrImmOps) : Statement (.msrCpsrImm o) := rfl
theorem msrSpsrImm (o : MsrImmOps) : Statement (.msrSpsrImm o) := rfl
theorem bx (o : BxOps) : Statement (.bx o) := rfl
theorem blxReg (o : BxOps) : Statement (.blxReg o) := rfl
theorem bkpt (o : BkptOps) : Statement (.bkpt o) := rfl
theorem clz (o : ClzOps) : Statement (.clz o) := rfl
theorem qadd (o : QOps) : Statement (.qadd o) := rfl
theorem qsub (o : QOps) : Statement (.qsub o) := rfl
theorem qdadd (o : QOps) : Statement (.qdadd o) := rfl
theorem qdsub (o : QOps) : Statement (.qdsub o) := rfl
theorem smlaXy (o : SmulOps) : Statement (.smlaXy o) := rfl
theorem smlawY (o : SmulwOps) : Statement (.smlawY o) := rfl
theorem smulwY (o : SmulwOps) : Statement (.smulwY o) := rfl
theorem smlalXy (o : SmlalOps) : Statement (.smlalXy o) := rfl
theorem smulXy (o : SmulOps) : Statement (.smulXy o) := rfl
theorem strImm (o : SdtImmOps) : Statement (.strImm o) := rfl
theorem strReg (o : SdtRegOps) : Statement (.strReg o) := rfl
theorem ldrImm (o : SdtImmOps) : Statement (.ldrImm o) := rfl
theorem ldrReg (o : SdtRegOps) : Statement (.ldrReg o) := rfl
theorem strbImm (o : SdtImmOps) : Statement (.strbImm o) := rfl
theorem strbReg (o : SdtRegOps) : Statement (.strbReg o) := rfl
theorem ldrbImm (o : SdtImmOps) : Statement (.ldrbImm o) := rfl
theorem ldrbReg (o : SdtRegOps) : Statement (.ldrbReg o) := rfl
theorem strtImm (o : SdtTImmOps) : Statement (.strtImm o) := rfl
theorem strtReg (o : SdtTRegOps) : Statement (.strtReg o) := rfl
theorem ldrtImm (o : SdtTImmOps) : Statement (.ldrtImm o) := rfl
theorem ldrtReg (o : SdtTRegOps) : Statement (.ldrtReg o) := rfl
theorem strbtImm (o : SdtTImmOps) : Statement (.strbtImm o) := rfl
theorem strbtReg (o : SdtTRegOps) : Statement (.strbtReg o) := rfl
theorem ldrbtImm (o : SdtTImmOps) : Statement (.ldrbtImm o) := rfl
theorem ldrbtReg (o : SdtTRegOps) : Statement (.ldrbtReg o) := rfl
theorem stm (o : BdtOps) : Statement (.stm o) := rfl
theorem ldm (o : BdtOps) : Statement (.ldm o) := rfl
theorem b (o : BranchOps) : Statement (.b o) := rfl
theorem bl (o : BranchOps) : Statement (.bl o) := rfl
theorem blxLabel (o : BlxLabelOps) : Statement (.blxLabel o) := rfl
theorem pld (o : PldOps) : Statement (.pld o) := rfl
theorem mrc (o : CoprocOps) : Statement (.mrc o) := rfl
theorem mcr (o : CoprocOps) : Statement (.mcr o) := rfl
theorem coprocOther (o : CoprocOtherOps) : Statement (.coprocOther o) := rfl
theorem swi (o : SwiOps) : Statement (.swi o) := rfl
theorem unkMiscA (word : Word) : Statement (.unkMiscA word) := rfl
theorem unkMiscB (word : Word) : Statement (.unkMiscB word) := rfl
theorem unkImm (word : Word) : Statement (.unkImm word) := rfl
theorem unk1001 (word : Word) : Statement (.unk1001 word) := rfl
theorem unkMedia (word : Word) : Statement (.unkMedia word) := rfl
theorem unkLdcStc (word : Word) : Statement (.unkLdcStc word) := rfl
theorem unkCdp (word : Word) : Statement (.unkCdp word) := rfl
theorem tLslImm (o : TShiftOps) : Statement (.tLslImm o) := rfl
theorem tLsrImm (o : TShiftOps) : Statement (.tLsrImm o) := rfl
theorem tAsrImm (o : TShiftOps) : Statement (.tAsrImm o) := rfl
theorem tAddReg (o : TAddRegOps) : Statement (.tAddReg o) := rfl
theorem tSubReg (o : TAddRegOps) : Statement (.tSubReg o) := rfl
theorem tAddImm3 (o : TAddImmOps) : Statement (.tAddImm3 o) := rfl
theorem tSubImm3 (o : TAddImmOps) : Statement (.tSubImm3 o) := rfl
theorem tMovImm8 (o : TImm8Ops) : Statement (.tMovImm8 o) := rfl
theorem tCmpImm8 (o : TImm8Ops) : Statement (.tCmpImm8 o) := rfl
theorem tAddImm8 (o : TImm8Ops) : Statement (.tAddImm8 o) := rfl
theorem tSubImm8 (o : TImm8Ops) : Statement (.tSubImm8 o) := rfl
theorem tAnd (o : TAluOps) : Statement (.tAnd o) := rfl
theorem tEor (o : TAluOps) : Statement (.tEor o) := rfl
theorem tLslReg (o : TAluOps) : Statement (.tLslReg o) := rfl
theorem tLsrReg (o : TAluOps) : Statement (.tLsrReg o) := rfl
theorem tAsrReg (o : TAluOps) : Statement (.tAsrReg o) := rfl
theorem tAdc (o : TAluOps) : Statement (.tAdc o) := rfl
theorem tSbc (o : TAluOps) : Statement (.tSbc o) := rfl
theorem tRorReg (o : TAluOps) : Statement (.tRorReg o) := rfl
theorem tTst (o : TAluOps) : Statement (.tTst o) := rfl
theorem tNeg (o : TAluOps) : Statement (.tNeg o) := rfl
theorem tCmpReg (o : TAluOps) : Statement (.tCmpReg o) := rfl
theorem tCmn (o : TAluOps) : Statement (.tCmn o) := rfl
theorem tOrr (o : TAluOps) : Statement (.tOrr o) := rfl
theorem tMul (o : TAluOps) : Statement (.tMul o) := rfl
theorem tBic (o : TAluOps) : Statement (.tBic o) := rfl
theorem tMvn (o : TAluOps) : Statement (.tMvn o) := rfl
theorem tAddHi (o : THiOps) : Statement (.tAddHi o) := rfl
theorem tCmpHi (o : THiOps) : Statement (.tCmpHi o) := rfl
theorem tMovHi (o : THiOps) : Statement (.tMovHi o) := rfl
theorem tBx (o : TBxOps) : Statement (.tBx o) := rfl
theorem tBlxReg (o : TBxOps) : Statement (.tBlxReg o) := rfl
theorem tBxH1 (o : TBxOps) : Statement (.tBxH1 o) := rfl
theorem tLdrPc (o : TImm8Ops) : Statement (.tLdrPc o) := rfl
theorem tStrReg (o : TRegOffOps) : Statement (.tStrReg o) := rfl
theorem tStrbReg (o : TRegOffOps) : Statement (.tStrbReg o) := rfl
theorem tLdrReg (o : TRegOffOps) : Statement (.tLdrReg o) := rfl
theorem tLdrbReg (o : TRegOffOps) : Statement (.tLdrbReg o) := rfl
theorem tStrhReg (o : TRegOffOps) : Statement (.tStrhReg o) := rfl
theorem tLdsbReg (o : TRegOffOps) : Statement (.tLdsbReg o) := rfl
theorem tLdrhReg (o : TRegOffOps) : Statement (.tLdrhReg o) := rfl
theorem tLdshReg (o : TRegOffOps) : Statement (.tLdshReg o) := rfl
theorem tStrImm (o : TImmOffOps) : Statement (.tStrImm o) := rfl
theorem tLdrImm (o : TImmOffOps) : Statement (.tLdrImm o) := rfl
theorem tStrbImm (o : TImmOffOps) : Statement (.tStrbImm o) := rfl
theorem tLdrbImm (o : TImmOffOps) : Statement (.tLdrbImm o) := rfl
theorem tStrhImm (o : TImmOffOps) : Statement (.tStrhImm o) := rfl
theorem tLdrhImm (o : TImmOffOps) : Statement (.tLdrhImm o) := rfl
theorem tStrSp (o : TImm8Ops) : Statement (.tStrSp o) := rfl
theorem tLdrSp (o : TImm8Ops) : Statement (.tLdrSp o) := rfl
theorem tAddPc (o : TImm8Ops) : Statement (.tAddPc o) := rfl
theorem tAddSp (o : TImm8Ops) : Statement (.tAddSp o) := rfl
theorem tIncSp (o : TAdjOps) : Statement (.tIncSp o) := rfl
theorem tDecSp (o : TAdjOps) : Statement (.tDecSp o) := rfl
theorem tPush (o : TPushPopOps) : Statement (.tPush o) := rfl
theorem tPop (o : TPushPopOps) : Statement (.tPop o) := rfl
theorem tBkpt (o : TCommentOps) : Statement (.tBkpt o) := rfl
theorem tUnk1011 (half : Half) : Statement (.tUnk1011 half) := rfl
theorem tStmia (o : TBlockOps) : Statement (.tStmia o) := rfl
theorem tLdmia (o : TBlockOps) : Statement (.tLdmia o) := rfl
theorem tBcond (o : TCondOps) : Statement (.tBcond o) := rfl
theorem tUnkDe (half : Half) : Statement (.tUnkDe half) := rfl
theorem tSwi (o : TCommentOps) : Statement (.tSwi o) := rfl
theorem tB (o : TBranchOps) : Statement (.tB o) := rfl
theorem tBlPrefix (o : TBranchOps) : Statement (.tBlPrefix o) := rfl
theorem tBlSuffix (o : TBranchOps) : Statement (.tBlSuffix o) := rfl
theorem tBlxSuffix (o : TBranchOps) : Statement (.tBlxSuffix o) := rfl
theorem tUnk11101 (half : Half) : Statement (.tUnk11101 half) := rfl

end Sys2Proof.Laws.Coding
end

