-- ==== Sys2Proof/Laws/Resolve.lean ====
section
/-! SUPPORT. `Resolve` is a translation inside a granule, so an entry of a page table says where each byte of its page goes
(spec/20_memory.md R84 to R92); whatever the parameters and the video mapping. -/
namespace Sys2Proof.Machine

/-! Arithmetic on the bytes `q * g + r` of a granule. -/

theorem mod_granule {g m : Nat} (q r : Nat) (hr : r < g) (hm : g ∣ m) : (q * g + r) % m = q * g % m + r := by
  obtain ⟨k, rfl⟩ := hm
  rcases Nat.eq_zero_or_pos k with rfl | hk
  · simp
  · have h2 : q % k < k := Nat.mod_lt _ hk
    have e : q * g % (g * k) = q % k * g := by rw [Nat.mul_comm q g, Nat.mul_mod_mul_left, Nat.mul_comm]
    have lt : q % k * g + r < g * k :=
      calc q % k * g + r < q % k * g + g := by omega
        _ = (q % k + 1) * g := by ring
        _ ≤ k * g := Nat.mul_le_mul_right _ h2
        _ = g * k := Nat.mul_comm _ _
    rw [Nat.add_mod, e, Nat.mod_eq_of_lt (a := r) (by omega), Nat.mod_eq_of_lt lt]

theorem lt_granule {g x : Nat} (q r : Nat) (hr : r < g) (hx : g ∣ x) : q * g + r < x ↔ q * g < x := by
  obtain ⟨k, rfl⟩ := hx
  constructor
  · omega
  · intro h
    have hq : q < k := by
      by_contra hn
      have := Nat.mul_le_mul_right g (Nat.le_of_not_lt hn)
      rw [Nat.mul_comm g k] at h
      omega
    calc q * g + r < q * g + g := by omega
      _ = (q + 1) * g := by ring
      _ ≤ k * g := Nat.mul_le_mul_right _ hq
      _ = g * k := Nat.mul_comm _ _

theorem le_granule {g x : Nat} (q r : Nat) (hr : r < g) (hx : g ∣ x) : x ≤ q * g + r ↔ x ≤ q * g := by
  have := lt_granule q r hr hx
  omega

/-! The parts of `Resolve`. -/

/-- Where a mapping sends a granule: byte `r` of it goes `r` bytes on. -/
def Linear (f : Nat → Target) (g q : Nat) : Prop :=
  ∀ b o r, r < g → f (q * g) = .buffer b o → f (q * g + r) = .buffer b (o + r)

theorem linear_mirror {g q : Nat} (m : Mirror) (h : g ∣ m.size) : Linear m.target g q := by
  intro b o r hr e
  simp only [Mirror.target, Target.buffer.injEq] at e ⊢
  exact ⟨e.1, by rw [mod_granule q r hr h]; omega⟩

theorem linear_bios {g q : Nat} (bb : Buf) (base size : Nat) (d : Dir) (hb : g ∣ base) (hs : g ∣ size) :
    Linear (fun a => biosRegion bb base size a d) g q := by
  intro b o r hr e
  cases d with
  | write => cases e
  | read =>
    simp only [biosRegion, le_granule q r hr hb, lt_granule q r hr (Nat.dvd_add hb hs)] at *
    split at e
    · next hc =>
      simp only [Target.buffer.injEq] at e
      rw [if_pos hc, e.1]
      congr 1
      omega
    · cases e

theorem findWindow_granule {g q r : Nat} (hr : r < g) (ws : List VideoWindow) (c : CoreId) (d : Dir)
    (h : ∀ w ∈ ws, g ∣ w.low ∧ g ∣ w.size) : findWindow ws c (q * g + r) d = findWindow ws c (q * g) d := by
  unfold findWindow
  induction ws with
  | nil => rfl
  | cons w rest ih =>
    obtain ⟨h1, h2⟩ := h w List.mem_cons_self
    simp only [List.find?_cons, le_granule q r hr h1, lt_granule q r hr (Nat.dvd_add h1 h2)]
    rw [ih fun x hx => h x (List.mem_cons_of_mem _ hx)]

theorem linear_video {g q : Nat} (ctl : RegionControl) (c : CoreId) (d : Dir)
    (h : ∀ w ∈ ctl.video, g ∣ w.low ∧ g ∣ w.size) : Linear (fun a => videoResolve ctl c a d) g q := by
  intro b o r hr e
  simp only [videoResolve, findWindow_granule hr _ _ _ h] at *
  split at e
  · next w hw =>
    have hl : w.low ≤ q * g := by
      have := List.find?_some hw
      simp only [Bool.and_eq_true, decide_eq_true_eq] at this
      exact this.1.2
    simp only [Target.buffer.injEq] at e ⊢
    exact ⟨e.1, by omega⟩
  · cases e

theorem not_linear_const {g q : Nat} (f : Nat → Target) (h : ∀ a b o, f a ≠ .buffer b o) : Linear f g q :=
  fun b o _ _ e => absurd e (h _ b o)

theorem dvd_of_even {g n : Nat} (hg : g ∣ 512) (h : (n % 512 == 0) = true) : g ∣ n :=
  Nat.dvd_trans hg (Nat.dvd_of_mod_eq_zero (by simpa using h))

theorem linear_option {g q : Nat} (hg : g ∣ 512) (o : Option Mirror) : evenOption o = true →
    Linear (fun a => match o with | some m => m.target a | none => .unmapped) g q := by
  intro h
  cases o with
  | none => exact not_linear_const _ (by simp)
  | some m => exact linear_mirror m (dvd_of_even hg h)

/-- A region is a translation inside every granule (R84). -/
theorem linear_kind {g q : Nat} (hg : g ∣ 512) (k : RegionKind) (par : Parameters) (ctl : RegionControl) (c : CoreId) (d : Dir)
    (hk : k.even = true) (hb : g ∣ par.biosSize.get c) (hv : ∀ w ∈ ctl.video, g ∣ w.low ∧ g ∣ w.size) :
    Linear (fun a => k.target par ctl c a d) g q := by
  cases k with
  | bios base => exact linear_bios _ _ _ d (dvd_of_even hg hk) hb
  | ram m => exact linear_mirror m (dvd_of_even hg hk)
  | byMode m0 m1 m2 m3 =>
    simp only [RegionKind.even, Bool.and_eq_true] at hk
    refine linear_option hg (layoutOf ctl.wramMode m0 m1 m2 m3) ?_
    unfold layoutOf
    split
    · exact hk.1.1.1
    · exact hk.1.1.2
    · exact hk.1.2
    · exact hk.2
  | mmio => exact not_linear_const _ (by simp [RegionKind.target])
  | video => exact linear_video ctl c d hv
  | cartridge =>
    refine not_linear_const _ fun a b o => ?_
    simp only [RegionKind.target]
    cases d
    · simp only [cartridgeSlot]; split <;> simp
    · simp [cartridgeSlot]

theorem findRegion_granule {g q r : Nat} (hr : r < g) (rs : List Region) (h : ∀ x ∈ rs, g ∣ x.low ∧ g ∣ x.high) :
    findRegion rs (q * g + r) = findRegion rs (q * g) := by
  unfold findRegion
  induction rs with
  | nil => rfl
  | cons x rest ih =>
    obtain ⟨h1, h2⟩ := h x List.mem_cons_self
    simp only [List.find?_cons, le_granule q r hr h1, lt_granule q r hr h2]
    rw [ih fun y hy => h y (List.mem_cons_of_mem _ hy)]

/-- An even mapping is a translation inside every granule of 512 bytes, or of a divisor of that. -/
theorem linear_region {g q : Nat} (hg : g ∣ 512) (par : Parameters) (ctl : RegionControl) (c : CoreId) (d : Dir)
    (h : evenMap par ctl c = true) : Linear (fun a => regionAt par ctl c a d) g q := by
  simp only [evenMap, Bool.and_eq_true, List.all_eq_true] at h
  obtain ⟨⟨hr, hb⟩, hv⟩ := h
  have rows : ∀ x ∈ par.regions.get c, g ∣ x.low ∧ g ∣ x.high := fun x hx => by
    have := hr x hx
    simp only [Region.even, Bool.and_eq_true] at this
    exact ⟨dvd_of_even hg this.1.1, dvd_of_even hg this.1.2⟩
  have windows : ∀ w ∈ ctl.video, g ∣ w.low ∧ g ∣ w.size := fun w hw => by
    have := hv w hw
    simp only [VideoWindow.even, Bool.and_eq_true] at this
    exact ⟨dvd_of_even hg this.1, dvd_of_even hg this.2⟩
  intro b o r hlt e
  simp only [regionAt, findRegion_granule hlt _ rows] at *
  split at e
  · next x hx =>
    have hm := List.mem_of_find?_eq_some hx
    have := hr x hm
    simp only [Region.even, Bool.and_eq_true] at this
    exact linear_kind hg x.kind par ctl c d this.2 (dvd_of_even hg hb) windows b o r hlt e
  · cases e

theorem tcmWindow_granule (reg : Word) : 512 ∣ tcmWindow reg := Nat.dvd_mul_right _ _

theorem dtcmBase_granule (ctl : RegionControl) : 512 ∣ dtcmBase ctl := by
  have h : ∀ w : Word, (w &&& 0xFFFFF000).extractLsb' 0 9 = 0 := by
    intro w
    apply BitVec.eq_of_getLsbD_eq
    intro j hj
    have : ∀ j < 9, (0xFFFFF000 : Word).getLsbD j = false := by decide
    simp only [BitVec.getLsbD_extractLsb', BitVec.getLsbD_and, Nat.zero_add, this j hj]
    simp
  have := congrArg BitVec.toNat (h ctl.cp15Dtcm)
  exact Nat.dvd_of_mod_eq_zero (by simpa [dtcmBase, BitVec.extractLsb'_toNat] using this)

/-- `Resolve` of an even mapping is a translation inside every granule (R88, R89). -/
theorem linear_resolve {g q : Nat} (hg : g ∣ 512) (par : Parameters) (ctl : RegionControl) (c : CoreId) (d : Dir)
    (h : evenMap par ctl c = true) : Linear (fun a => resolveAt par ctl c a d) g q := by
  cases c with
  | a7 => exact linear_region hg par ctl .a7 d h
  | a9 =>
    intro b o r hr e
    have h1 := Nat.dvd_trans hg (tcmWindow_granule ctl.cp15Itcm)
    have h3 := Nat.dvd_trans hg (dtcmBase_granule ctl)
    have h4 := Nat.dvd_add h3 (Nat.dvd_trans hg (tcmWindow_granule ctl.cp15Dtcm))
    simp only [resolveAt, lt_granule q r hr h1, lt_granule q r hr h4, le_granule q r hr h3] at *
    split at e
    · next hi =>
      rw [if_pos hi]
      cases e
      rw [mod_granule q r hr (Nat.dvd_trans hg (by decide : 512 ∣ Params.itcmSize))]
    · next hi =>
      rw [if_neg hi]
      split at e
      · next hd =>
        rw [if_pos hd]
        cases e
        obtain ⟨k, hk⟩ := h3
        have e1 : q * g - dtcmBase ctl = (q - k) * g := by rw [hk, Nat.sub_mul, Nat.mul_comm g k]
        have e2 : q * g + r - dtcmBase ctl = (q - k) * g + r := by rw [← e1]; omega
        rw [e2, e1, mod_granule _ r hr (Nat.dvd_trans hg (by decide : 512 ∣ Params.dtcmSize))]
      · next hd =>
        rw [if_neg hd]
        exact linear_region hg par ctl .a9 d h b o r hr e

theorem granule_pos (par : Parameters) (ctl : RegionControl) (c : CoreId) : 0 < granule par ctl c := by
  unfold granule; split <;> positivity

theorem granule_dvd_page (par : Parameters) (ctl : RegionControl) (c : CoreId) : granule par ctl c ∣ par.pageSize := by
  unfold granule
  split
  · exact Nat.pow_dvd_pow 2 (Nat.min_le_right _ _)
  · exact Nat.one_dvd _

/-- `Resolve` is a translation inside every granule, whatever the mapping. -/
theorem resolveAt_granule (par : Parameters) (ctl : RegionControl) (c : CoreId) (q r : Nat) (hr : r < granule par ctl c) (d : Dir)
    (b : Buf) (o : Nat) (h : resolveAt par ctl c (q * granule par ctl c) d = .buffer b o) :
    resolveAt par ctl c (q * granule par ctl c + r) d = .buffer b (o + r) := by
  by_cases he : evenMap par ctl c = true
  · have hg : granule par ctl c ∣ 512 := by
      unfold granule
      rw [if_pos he]
      exact Nat.pow_dvd_pow 2 (Nat.min_le_left 9 _)
    exact linear_resolve hg par ctl c d he b o r hr h
  · have h1 : granule par ctl c = 1 := by unfold granule; rw [if_neg he]
    have : r = 0 := by omega
    subst this
    exact h

/-- A page with an entry is uniform (R91): every byte of it goes where the entry says. -/
theorem pageEntry_uniform (par : Parameters) (ctl : RegionControl) (c : CoreId) (p : Nat) (d : Dir) (b : Buf) (o k : Nat)
    (h : pageEntry par ctl c p d = some (b, o)) (hk : k < par.pageSize) :
    resolveAt par ctl c (p * par.pageSize + k) d = .buffer b (o + k) := by
  unfold pageEntry at h
  split at h <;> try cases h
  dsimp only at h
  split at h <;> cases h
  rename_i hu
  obtain ⟨n, hn⟩ := granule_dvd_page par ctl c
  have hg := granule_pos par ctl c
  generalize hgg : granule par ctl c = g at *
  have lt : k / g < par.pageSize / g := Nat.div_lt_div_of_lt_of_dvd ⟨n, hn⟩ hk
  have hg' := eq_of_beq (List.all_eq_true.mp hu (k / g) (List.mem_range.mpr lt))
  have e : p * par.pageSize + k / g * g = (p * n + k / g) * g := by rw [hn]; ring
  rw [e] at hg'
  have := resolveAt_granule par ctl c (p * n + k / g) (k % g) (by rw [hgg]; exact Nat.mod_lt _ hg) d b (o + k / g * g)
    (by rw [hgg]; exact hg')
  rw [hgg, ← e, Nat.add_assoc, Nat.add_assoc, Nat.div_add_mod'] at this
  exact this

/-- A page all of whose bytes go where one buffer's bytes go has that entry: the test on granules asks no less than R91 and no
more. -/
theorem pageEntry_complete (par : Parameters) (ctl : RegionControl) (c : CoreId) (p : Nat) (d : Dir) (b : Buf) (o : Nat)
    (h : ∀ k < par.pageSize, resolveAt par ctl c (p * par.pageSize + k) d = .buffer b (o + k)) :
    pageEntry par ctl c p d = some (b, o) := by
  have h0 := h 0 (Nat.two_pow_pos _)
  simp only [Nat.add_zero] at h0
  unfold pageEntry
  simp only [h0]
  rw [if_pos]
  refine List.all_eq_true.mpr fun k hk => ?_
  have hk := List.mem_range.mp hk
  have lt : k * granule par ctl c < par.pageSize := by
    have := Nat.mul_lt_mul_of_pos_right hk (granule_pos par ctl c)
    rwa [Nat.div_mul_cancel (granule_dvd_page par ctl c)] at this
  exact beq_iff_eq.mpr (h _ lt)

theorem page_lt (par : Parameters) (a : Word) : a.toNat / par.pageSize < par.pageCount := by
  have ha := a.isLt
  unfold Parameters.pageSize Parameters.pageCount
  by_cases hb : par.pageBits ≤ 32
  · rw [Nat.div_lt_iff_lt_mul (Nat.two_pow_pos _), ← Nat.pow_add, Nat.sub_add_cancel hb]; exact ha
  · have : a.toNat < 2 ^ par.pageBits :=
      Nat.lt_of_lt_of_le ha (Nat.pow_le_pow_right (by decide) (Nat.le_of_lt (Nat.lt_of_not_le hb)))
    rw [Nat.div_eq_of_lt this]
    exact Nat.two_pow_pos _

/-- Tables made by one rebuild of the whole space from the region control in force agree with `Resolve` (R78, R92). -/
theorem tablesFresh_whole (c : CoreId) (s : State)
    (h : (s.core c).pageTable = [{ low := 0, high := s.par.pageCount, ctl := s.ctl }]) : TablesFresh c s := by
  intro a d
  unfold locate tableEntry
  rw [h]
  simp only [List.find?_cons, Nat.zero_le, decide_true, Bool.true_and, decide_eq_true (page_lt s.par a)]
  split
  · next b base he =>
    have := pageEntry_uniform s.par s.ctl c _ d b base (a.toNat % s.par.pageSize) he (Nat.mod_lt _ (Nat.two_pow_pos _))
    rw [Nat.div_add_mod' a.toNat s.par.pageSize] at this
    exact this.symm
  · rfl

end Sys2Proof.Machine
end

