-- ==== Sys2Proof/Tests/Slice0.lean ====
section
/-! SUPPORT. The model's own tests. A test named V<n> takes its setup and expected values from the vector of that number in
spec/95_test_vectors.md or spec/96_test_vectors_thumb_system.md; the others are computed by hand from the rule named. The
words of the decode tests are written from the class patterns and fields of spec/30_encoding.md and spec/opcode_table.json. -/

open Sys2Proof Sys2Proof.Machine

namespace Sys2Proof.Tests

/-! Decoding, one word for every row. -/

/-- ARM DP_IMM. -/
theorem test_decode_arm_dp_imm_1 :
  decode .a7 (.arm 0b1110_0010_0000_1000_1101_1111_0110_1011) =
    .andImm { cond := 14, s := 0, rn := 8, rd := 13 } { rotate := 15, imm8 := 0x6b } ∧
  decode .a7 (.arm 0xE23BA468) =
    .eorImm { cond := 14, s := 1, rn := 11, rd := 10 } { rotate := 4, imm8 := 0x68 } ∧
  decode .a7 (.arm 0xA24A443B) =
    .subImm { cond := 10, s := 0, rn := 10, rd := 4 } { rotate := 4, imm8 := 0x3b } ∧
  decode .a7 (.arm 0xE261FAEA) =
    .rsbImm { cond := 14, s := 0, rn := 1, rd := 15 } { rotate := 10, imm8 := 0xea } ∧
  decode .a7 (.arm 0xE29C219D) =
    .addImm { cond := 14, s := 1, rn := 12, rd := 2 } { rotate := 1, imm8 := 0x9d } ∧
  decode .a7 (.arm 0x12BF3E7F) =
    .adcImm { cond := 1, s := 1, rn := 15, rd := 3 } { rotate := 14, imm8 := 0x7f } ∧
  decode .a7 (.arm 0xE2C06385) =
    .sbcImm { cond := 14, s := 0, rn := 0, rd := 6 } { rotate := 3, imm8 := 0x85 } ∧
  decode .a7 (.arm 0xE2E53E96) =
    .rscImm { cond := 14, s := 0, rn := 5, rd := 3 } { rotate := 14, imm8 := 0x96 } := by decide

/-- ARM DP_IMM. -/
theorem test_decode_arm_dp_imm_2 :
  decode .a7 (.arm 0b1110_0011_0001_0101_0001_0101_1010_0101) =
    .tstImm { cond := 14, rn := 5, rd := 1 } { rotate := 5, imm8 := 0xa5 } ∧
  decode .a7 (.arm 0xE3313779) =
    .teqImm { cond := 14, rn := 1, rd := 3 } { rotate := 7, imm8 := 0x79 } ∧
  decode .a7 (.arm 0xA35DF936) =
    .cmpImm { cond := 10, rn := 13, rd := 15 } { rotate := 9, imm8 := 0x36 } ∧
  decode .a7 (.arm 0xE371EF82) =
    .cmnImm { cond := 14, rn := 1, rd := 14 } { rotate := 15, imm8 := 0x82 } ∧
  decode .a7 (.arm 0xE384EBB3) =
    .orrImm { cond := 14, s := 0, rn := 4, rd := 14 } { rotate := 11, imm8 := 0xb3 } ∧
  decode .a7 (.arm 0x13B46C67) =
    .movImm { cond := 1, s := 1, rn := 4, rd := 6 } { rotate := 12, imm8 := 0x67 } ∧
  decode .a7 (.arm 0xA3C32C62) =
    .bicImm { cond := 10, s := 0, rn := 3, rd := 2 } { rotate := 12, imm8 := 0x62 } ∧
  decode .a7 (.arm 0xE3EB2278) =
    .mvnImm { cond := 14, s := 0, rn := 11, rd := 2 } { rotate := 2, imm8 := 0x78 } := by decide

/-- ARM DP_IMMSHIFT. -/
theorem test_decode_arm_dp_immshift_1 :
  decode .a7 (.arm 0b1110_0000_0001_1110_1011_1110_1000_0111) =
    .andShiftImm { cond := 14, s := 1, rn := 14, rd := 11 } { amount := 0x1d, type := .lsl, rm := 7 } ∧
  decode .a7 (.arm 0xE02104A8) =
    .eorShiftImm { cond := 14, s := 0, rn := 1, rd := 0 } { amount := 9, type := .lsr, rm := 8 } ∧
  decode .a7 (.arm 0xA0493DE3) =
    .subShiftImm { cond := 10, s := 0, rn := 9, rd := 3 } { amount := 0x1b, type := .ror, rm := 3 } ∧
  decode .a7 (.arm 0xE071D707) =
    .rsbShiftImm { cond := 14, s := 1, rn := 1, rd := 13 } { amount := 14, type := .lsl, rm := 7 } ∧
  decode .a7 (.arm 0xE099B22F) =
    .addShiftImm { cond := 14, s := 1, rn := 9, rd := 11 } { amount := 4, type := .lsr, rm := 15 } ∧
  decode .a7 (.arm 0xE0A712EF) =
    .adcShiftImm { cond := 14, s := 0, rn := 7, rd := 1 } { amount := 5, type := .ror, rm := 15 } ∧
  decode .a7 (.arm 0xE0CB2CC9) =
    .sbcShiftImm { cond := 14, s := 0, rn := 11, rd := 2 } { amount := 0x19, type := .asr, rm := 9 } ∧
  decode .a7 (.arm 0x10F62B8F) =
    .rscShiftImm { cond := 1, s := 1, rn := 6, rd := 2 } { amount := 0x17, type := .lsl, rm := 15 } := by decide

/-- ARM DP_IMMSHIFT. -/
theorem test_decode_arm_dp_immshift_2 :
  decode .a7 (.arm 0b1110_0001_0001_1100_0101_1110_1100_0011) =
    .tstShiftImm { cond := 14, rn := 12, rd := 5 } { amount := 0x1d, type := .asr, rm := 3 } ∧
  decode .a7 (.arm 0xE132D8C3) =
    .teqShiftImm { cond := 14, rn := 2, rd := 13 } { amount := 0x11, type := .asr, rm := 3 } ∧
  decode .a7 (.arm 0xE15ECCE2) =
    .cmpShiftImm { cond := 14, rn := 14, rd := 12 } { amount := 0x19, type := .ror, rm := 2 } ∧
  decode .a7 (.arm 0xE17F3E66) =
    .cmnShiftImm { cond := 14, rn := 15, rd := 3 } { amount := 0x1c, type := .ror, rm := 6 } ∧
  decode .a7 (.arm 0x118F73CB) =
    .orrShiftImm { cond := 1, s := 0, rn := 15, rd := 7 } { amount := 7, type := .asr, rm := 11 } ∧
  decode .a7 (.arm 0xA1AA3E29) =
    .movShiftImm { cond := 10, s := 0, rn := 10, rd := 3 } { amount := 0x1c, type := .lsr, rm := 9 } ∧
  decode .a7 (.arm 0xE1C9972B) =
    .bicShiftImm { cond := 14, s := 0, rn := 9, rd := 9 } { amount := 14, type := .lsr, rm := 11 } ∧
  decode .a7 (.arm 0xE1EE0BC7) =
    .mvnShiftImm { cond := 14, s := 0, rn := 14, rd := 0 } { amount := 0x17, type := .asr, rm := 7 } := by decide

/-- ARM DP_REGSHIFT. -/
theorem test_decode_arm_dp_regshift_1 :
  decode .a7 (.arm 0b0001_0000_0000_0101_1100_1101_0111_1010) =
    .andShiftReg { cond := 1, s := 0, rn := 5, rd := 12 } { rs := 13, type := .ror, rm := 10 } ∧
  decode .a7 (.arm 0xE02C4C7D) =
    .eorShiftReg { cond := 14, s := 0, rn := 12, rd := 4 } { rs := 12, type := .ror, rm := 13 } ∧
  decode .a7 (.arm 0xA0579139) =
    .subShiftReg { cond := 10, s := 1, rn := 7, rd := 9 } { rs := 1, type := .lsr, rm := 9 } ∧
  decode .a7 (.arm 0x1077671E) =
    .rsbShiftReg { cond := 1, s := 1, rn := 7, rd := 6 } { rs := 7, type := .lsl, rm := 14 } ∧
  decode .a7 (.arm 0xE082EB76) =
    .addShiftReg { cond := 14, s := 0, rn := 2, rd := 14 } { rs := 11, type := .ror, rm := 6 } ∧
  decode .a7 (.arm 0xA0BA2C73) =
    .adcShiftReg { cond := 10, s := 1, rn := 10, rd := 2 } { rs := 12, type := .ror, rm := 3 } ∧
  decode .a7 (.arm 0xE0D8E11E) =
    .sbcShiftReg { cond := 14, s := 1, rn := 8, rd := 14 } { rs := 1, type := .lsl, rm := 14 } ∧
  decode .a7 (.arm 0xE0E57F56) =
    .rscShiftReg { cond := 14, s := 0, rn := 5, rd := 7 } { rs := 15, type := .asr, rm := 6 } := by decide

/-- ARM DP_REGSHIFT. -/
theorem test_decode_arm_dp_regshift_2 :
  decode .a7 (.arm 0b1010_0001_0001_0110_0100_0010_0111_0011) =
    .tstShiftReg { cond := 10, rn := 6, rd := 4 } { rs := 2, type := .ror, rm := 3 } ∧
  decode .a7 (.arm 0xA132517B) =
    .teqShiftReg { cond := 10, rn := 2, rd := 5 } { rs := 1, type := .ror, rm := 11 } ∧
  decode .a7 (.arm 0xA150537E) =
    .cmpShiftReg { cond := 10, rn := 0, rd := 5 } { rs := 3, type := .ror, rm := 14 } ∧
  decode .a7 (.arm 0x11769F5C) =
    .cmnShiftReg { cond := 1, rn := 6, rd := 9 } { rs := 15, type := .asr, rm := 12 } ∧
  decode .a7 (.arm 0xA1975257) =
    .orrShiftReg { cond := 10, s := 1, rn := 7, rd := 5 } { rs := 2, type := .asr, rm := 7 } ∧
  decode .a7 (.arm 0x11BFA43E) =
    .movShiftReg { cond := 1, s := 1, rn := 15, rd := 10 } { rs := 4, type := .lsr, rm := 14 } ∧
  decode .a7 (.arm 0xA1CD9450) =
    .bicShiftReg { cond := 10, s := 0, rn := 13, rd := 9 } { rs := 4, type := .asr, rm := 0 } ∧
  decode .a7 (.arm 0xE1F2E45D) =
    .mvnShiftReg { cond := 14, s := 1, rn := 2, rd := 14 } { rs := 4, type := .asr, rm := 13 } := by decide

/-- ARM MUL. -/
theorem test_decode_arm_mul :
  decode .a7 (.arm 0b1110_0000_0000_0011_1100_0100_1001_0101) =
    .mul { cond := 14, s := 0, rd := 3, rn := 12, rs := 4, rm := 5 } ∧
  decode .a7 (.arm 0xE0330B9C) =
    .mla { cond := 14, s := 1, rd := 3, rn := 0, rs := 11, rm := 12 } := by decide

/-- ARM MULL. -/
theorem test_decode_arm_mull :
  decode .a7 (.arm 0b1110_0000_1000_0000_0111_0101_1001_1000) =
    .umull { cond := 14, s := 0, rdHi := 0, rdLo := 7, rs := 5, rm := 8 } ∧
  decode .a7 (.arm 0xE0BD709B) =
    .umlal { cond := 14, s := 1, rdHi := 13, rdLo := 7, rs := 0, rm := 11 } ∧
  decode .a7 (.arm 0xE0DDA292) =
    .smull { cond := 14, s := 1, rdHi := 13, rdLo := 10, rs := 2, rm := 2 } ∧
  decode .a7 (.arm 0xA0FF4B90) =
    .smlal { cond := 10, s := 1, rdHi := 15, rdLo := 4, rs := 11, rm := 0 } := by decide

/-- ARM SWP. -/
theorem test_decode_arm_swp :
  decode .a7 (.arm 0b1110_0001_0000_0000_1101_1101_1001_1011) =
    .swp { cond := 14, rn := 0, rd := 13, sbz := 13, rm := 11 } ∧
  decode .a7 (.arm 0xA145C69C) =
    .swpb { cond := 10, rn := 5, rd := 12, sbz := 6, rm := 12 } := by decide

/-- ARM HDT_REG. -/
theorem test_decode_arm_hdt_reg :
  decode .a7 (.arm 0b0001_0001_0010_1011_1101_1001_1011_1100) =
    .strhReg { cond := 1, p := 1, u := 0, w := 1, rn := 11, rd := 13, sbz := 9, rm := 12 } ∧
  decode .a7 (.arm 0xE13870BF) =
    .ldrhReg { cond := 14, p := 1, u := 0, w := 1, rn := 8, rd := 7, sbz := 0, rm := 15 } ∧
  decode .a7 (.arm 0x119FD5D8) =
    .ldrsbReg { cond := 1, p := 1, u := 1, w := 0, rn := 15, rd := 13, sbz := 5, rm := 8 } ∧
  decode .a7 (.arm 0xE1B1C9F7) =
    .ldrshReg { cond := 14, p := 1, u := 1, w := 1, rn := 1, rd := 12, sbz := 9, rm := 7 } ∧
  decode .a9 (.arm 0xA1AFC8D8) =
    .ldrdReg { cond := 10, p := 1, u := 1, w := 1, rn := 15, rd := 12, sbz := 8, rm := 8 } ∧
  decode .a9 (.arm 0x118C6CFF) =
    .strdReg { cond := 1, p := 1, u := 1, w := 0, rn := 12, rd := 6, sbz := 12, rm := 15 } := by decide

/-- ARM HDT_IMM. -/
theorem test_decode_arm_hdt_imm :
  decode .a7 (.arm 0b1010_0001_1110_0000_1010_1001_1011_1100) =
    .strhImm { cond := 10, p := 1, u := 1, w := 1, rn := 0, rd := 10, immHi := 9, immLo := 12 } ∧
  decode .a7 (.arm 0xE1D800BF) =
    .ldrhImm { cond := 14, p := 1, u := 1, w := 0, rn := 8, rd := 0, immHi := 0, immLo := 15 } ∧
  decode .a7 (.arm 0xA1D34FD8) =
    .ldrsbImm { cond := 10, p := 1, u := 1, w := 0, rn := 3, rd := 4, immHi := 15, immLo := 8 } ∧
  decode .a7 (.arm 0x115BC6F6) =
    .ldrshImm { cond := 1, p := 1, u := 0, w := 0, rn := 11, rd := 12, immHi := 6, immLo := 6 } ∧
  decode .a9 (.arm 0x11EACCDA) =
    .ldrdImm { cond := 1, p := 1, u := 1, w := 1, rn := 10, rd := 12, immHi := 12, immLo := 10 } ∧
  decode .a9 (.arm 0xE1681BF5) =
    .strdImm { cond := 14, p := 1, u := 0, w := 1, rn := 8, rd := 1, immHi := 11, immLo := 5 } := by decide

/-- ARM HDT_REG / HDT_IMM (L = 0, S = 1). -/
theorem test_decode_arm_hdt_reg_hdt_imm_l_0_s_1 :
  decode .a7 (.arm 0b1110_0001_1100_0000_0010_0000_1101_0000) =
    .unkDoubleA7 0xE1C020D0 := by decide

/-- ARM MRS. -/
theorem test_decode_arm_mrs :
  decode .a7 (.arm 0b0001_0001_0000_1000_0100_1100_0000_1110) =
    .mrs { cond := 1, r := 0, sbo := 8, rd := 4, sbz := 12, sbz2 := 14 } := by decide

/-- ARM MSR_REG. -/
theorem test_decode_arm_msr_reg :
  decode .a7 (.arm 0b1110_0001_0010_1011_1111_0101_0000_0010) =
    .msrCpsrReg { cond := 14, mask := 11, sbo := 15, sbz := 5, rm := 2 } ∧
  decode .a7 (.arm 0xA169F805) =
    .msrSpsrReg { cond := 10, mask := 9, sbo := 15, sbz := 8, rm := 5 } := by decide

/-- ARM MSR_IMM. -/
theorem test_decode_arm_msr_imm :
  decode .a7 (.arm 0b1010_0011_0010_0101_0010_1101_0011_1100) =
    .msrCpsrImm { cond := 10, mask := 5, sbo := 2, rotate := 13, imm8 := 0x3c } ∧
  decode .a7 (.arm 0x136AFF23) =
    .msrSpsrImm { cond := 1, mask := 10, sbo := 15, rotate := 15, imm8 := 0x23 } := by decide

/-- ARM BX. -/
theorem test_decode_arm_bx :
  decode .a7 (.arm 0b1010_0001_0010_0111_0101_1000_0001_1110) =
    .bx { cond := 10, sbo := 0x758, rm := 14 } := by decide

/-- ARM BLX_REG. -/
theorem test_decode_arm_blx_reg :
  decode .a9 (.arm 0b0001_0001_0010_0000_0011_1110_0011_1011) =
    .blxReg { cond := 1, sbo := 0x3e, rm := 11 } := by decide

/-- ARM UNK_MISC_B. -/
theorem test_decode_arm_unk_misc_b :
  decode .a7 (.arm 0b1110_0001_0010_0011_1010_1010_0111_1100) =
    .bkpt { cond := 14, imm12 := 0x3aa, imm4 := 12 } := by decide

/-- ARM CLZ. -/
theorem test_decode_arm_clz :
  decode .a9 (.arm 0b1110_0001_0110_1000_0111_0111_0001_0011) =
    .clz { cond := 14, sbo := 8, rd := 7, sbo2 := 7, rm := 3 } := by decide

/-- ARM QADDSUB. -/
theorem test_decode_arm_qaddsub :
  decode .a9 (.arm 0b1110_0001_0000_0010_0101_0110_0101_0110) =
    .qadd { cond := 14, rn := 2, rd := 5, sbz := 6, rm := 6 } ∧
  decode .a9 (.arm 0x11289551) =
    .qsub { cond := 1, rn := 8, rd := 9, sbz := 5, rm := 1 } ∧
  decode .a9 (.arm 0xE14FF254) =
    .qdadd { cond := 14, rn := 15, rd := 15, sbz := 2, rm := 4 } ∧
  decode .a9 (.arm 0x116D0B56) =
    .qdsub { cond := 1, rn := 13, rd := 0, sbz := 11, rm := 6 } := by decide

/-- ARM SMULXY. -/
theorem test_decode_arm_smulxy :
  decode .a9 (.arm 0b1110_0001_0000_0011_0110_1011_1000_0100) =
    .smlaXy { cond := 14, rd := 3, rn := 6, rs := 11, y := 0, x := 0, rm := 4 } ∧
  decode .a9 (.arm 0xE125A8C5) =
    .smlawY { cond := 14, rd := 5, rn := 10, rs := 8, y := 1, rm := 5 } ∧
  decode .a9 (.arm 0xE12AD9A1) =
    .smulwY { cond := 14, rd := 10, rn := 13, rs := 9, y := 0, rm := 1 } ∧
  decode .a9 (.arm 0xE14DADAA) =
    .smlalXy { cond := 14, rdHi := 13, rdLo := 10, rs := 13, y := 0, x := 1, rm := 10 } ∧
  decode .a9 (.arm 0xE16115C8) =
    .smulXy { cond := 14, rd := 1, rn := 1, rs := 5, y := 1, x := 0, rm := 8 } := by decide

/-- ARM SDT_IMM. -/
theorem test_decode_arm_sdt_imm :
  decode .a7 (.arm 0b0001_0101_1010_1100_1101_1011_1000_1001) =
    .strImm { cond := 1, p := 1, u := 1, w := 1, rn := 12, rd := 13, offset := 0xb89 } ∧
  decode .a7 (.arm 0xE5B72AC6) =
    .ldrImm { cond := 14, p := 1, u := 1, w := 1, rn := 7, rd := 2, offset := 0xac6 } ∧
  decode .a7 (.arm 0xE5E82326) =
    .strbImm { cond := 14, p := 1, u := 1, w := 1, rn := 8, rd := 2, offset := 0x326 } ∧
  decode .a7 (.arm 0xA5F0B1AC) =
    .ldrbImm { cond := 10, p := 1, u := 1, w := 1, rn := 0, rd := 11, offset := 0x1ac } := by decide

/-- ARM SDT_REG. -/
theorem test_decode_arm_sdt_reg :
  decode .a7 (.arm 0b0001_0111_1000_0011_1100_1111_0100_1100) =
    .strReg { cond := 1, p := 1, u := 1, w := 0, rn := 3, rd := 12, amount := 0x1e, type := .asr, rm := 12 } ∧
  decode .a7 (.arm 0xE79F588E) =
    .ldrReg { cond := 14, p := 1, u := 1, w := 0, rn := 15, rd := 5, amount := 0x11, type := .lsl, rm := 14 } ∧
  decode .a7 (.arm 0xA7ED1DEC) =
    .strbReg { cond := 10, p := 1, u := 1, w := 1, rn := 13, rd := 1, amount := 0x1b, type := .ror, rm := 12 } ∧
  decode .a7 (.arm 0x175D1288) =
    .ldrbReg { cond := 1, p := 1, u := 0, w := 0, rn := 13, rd := 1, amount := 5, type := .lsl, rm := 8 } := by decide

/-- ARM SDT_IMM (P = 0, W = 1. -/
theorem test_decode_arm_sdt_imm_p_0_w_1 :
  decode .a7 (.arm 0b1110_0100_0010_1000_1100_0010_1101_1010) =
    .strtImm { cond := 14, u := 0, rn := 8, rd := 12, offset := 0x2da } ∧
  decode .a7 (.arm 0x143C5FE3) =
    .ldrtImm { cond := 1, u := 0, rn := 12, rd := 5, offset := 0xfe3 } ∧
  decode .a7 (.arm 0xE4EA8AC0) =
    .strbtImm { cond := 14, u := 1, rn := 10, rd := 8, offset := 0xac0 } ∧
  decode .a7 (.arm 0xE4F76C62) =
    .ldrbtImm { cond := 14, u := 1, rn := 7, rd := 6, offset := 0xc62 } := by decide

/-- ARM SDT_REG (P = 0, W = 1. -/
theorem test_decode_arm_sdt_reg_p_0_w_1 :
  decode .a7 (.arm 0b1110_0110_1010_1001_0010_0010_1010_1010) =
    .strtReg { cond := 14, u := 1, rn := 9, rd := 2, amount := 5, type := .lsr, rm := 10 } ∧
  decode .a7 (.arm 0x163956AB) =
    .ldrtReg { cond := 1, u := 0, rn := 9, rd := 5, amount := 13, type := .lsr, rm := 11 } ∧
  decode .a7 (.arm 0xE6ED50EA) =
    .strbtReg { cond := 14, u := 1, rn := 13, rd := 5, amount := 1, type := .ror, rm := 10 } ∧
  decode .a7 (.arm 0xA6FED780) =
    .ldrbtReg { cond := 10, u := 1, rn := 14, rd := 13, amount := 15, type := .lsl, rm := 0 } := by decide

/-- ARM BDT. -/
theorem test_decode_arm_bdt :
  decode .a7 (.arm 0b0001_1000_1100_0100_1000_1101_0110_0111) =
    .stm { cond := 1, p := 0, u := 1, s := 1, w := 0, rn := 4, list := 0x8d67 } ∧
  decode .a7 (.arm 0x18BF1216) =
    .ldm { cond := 1, p := 0, u := 1, s := 0, w := 1, rn := 15, list := 0x1216 } := by decide

/-- ARM B_BL. -/
theorem test_decode_arm_b_bl :
  decode .a7 (.arm 0b1010_1010_1000_1000_0000_1000_0000_0110) =
    .b { cond := 10, imm24 := 0x880806 } ∧
  decode .a7 (.arm 0x1B3140B7) =
    .bl { cond := 1, imm24 := 0x3140b7 } := by decide

/-- ARM BLX_IMM (cond = 1111). -/
theorem test_decode_arm_blx_imm_cond_1111 :
  decode .a9 (.arm 0b1111_1011_0000_0110_1010_1110_0111_0010) =
    .blxLabel { h := 1, imm24 := 0x6ae72 } := by decide

/-- ARM PLD (cond = 1111). -/
theorem test_decode_arm_pld_cond_1111 :
  decode .a9 (.arm 0b1111_0111_0101_0111_0010_1110_0110_0011) =
    .pld { i := 1, u := 0, rn := 7, sbo := 2, offset := 0xe63 } := by decide

/-- ARM MRC_MCR (cp_num = 15, opcode1 = 0). -/
theorem test_decode_arm_mrc_mcr_cp_num_15_opcode1_0 :
  decode .a9 (.arm 0b1110_1110_0001_0110_1110_1111_1111_0111) =
    .mrc { cond := 14, crn := 6, rd := 14, op2 := 7, crm := 7 } ∧
  decode .a9 (.arm 0x1E086F12) =
    .mcr { cond := 1, crn := 8, rd := 6, op2 := 0, crm := 2 } := by decide

/-- ARM MRC_MCR. -/
theorem test_decode_arm_mrc_mcr :
  decode .a7 (.arm 0b1110_1110_1010_0011_0011_0111_0001_0100) =
    .coprocOther { cond := 14, op1 := 5, l := 0, crn := 3, rd := 3, cp := 7, op2 := 0, crm := 4 } := by decide

/-- ARM SWI. -/
theorem test_decode_arm_swi :
  decode .a7 (.arm 0b1110_1111_0001_1101_1111_0110_1010_0110) =
    .swi { cond := 14, comment := 0x1df6a6 } := by decide

/-- ARM UNK_MISC_A (class pattern of 30_encoding.md rule R134. -/
theorem test_decode_arm_unk_misc_a_class :
  decode .a7 (.arm 0b1110_0001_0000_0000_0000_0000_0100_0000) =
    .unkMiscA 0xE1000040 := by decide

/-- ARM UNK_MISC_B (class pattern of 30_encoding.md rule R134. -/
theorem test_decode_arm_unk_misc_b_class :
  decode .a7 (.arm 0b1110_0001_0000_0000_0000_0000_0001_0000) =
    .unkMiscB 0xE1000010 := by decide

/-- ARM UNK_IMM (class pattern of 30_encoding.md rule R134. -/
theorem test_decode_arm_unk_imm_class :
  decode .a7 (.arm 0b1110_0011_0000_0000_0000_0000_0000_0000) =
    .unkImm 0xE3000000 := by decide

/-- ARM UNK_1001 (class pattern of 30_encoding.md rule R134. -/
theorem test_decode_arm_unk_1001_class :
  decode .a7 (.arm 0b1110_0000_0100_0000_0000_0000_1001_0000) =
    .unk1001 0xE0400090 := by decide

/-- ARM UNK_MEDIA (class pattern of 30_encoding.md rule R134. -/
theorem test_decode_arm_unk_media_class :
  decode .a7 (.arm 0b1110_0111_1111_0000_0000_0000_1111_0000) =
    .unkMedia 0xE7F000F0 := by decide

/-- ARM UNK_LDC_STC (class pattern of 30_encoding.md rule R134. -/
theorem test_decode_arm_unk_ldc_stc_class :
  decode .a7 (.arm 0b1110_1100_0000_0000_0000_0000_0000_0000) =
    .unkLdcStc 0xEC000000 := by decide

/-- ARM UNK_CDP (class pattern of 30_encoding.md rule R134. -/
theorem test_decode_arm_unk_cdp_class :
  decode .a7 (.arm 0b1110_1110_0000_0000_0000_0000_0000_0000) =
    .unkCdp 0xEE000000 := by decide

/-- THUMB format 1. -/
theorem test_decode_thumb_format_1 :
  decode .a7 (.thumb 0b0000_0111_0011_0110) =
    .tLslImm { imm5 := 0x1c, rs := 6, rd := 6 } ∧
  decode .a7 (.thumb 0x0ECF) =
    .tLsrImm { imm5 := 0x1b, rs := 1, rd := 7 } ∧
  decode .a7 (.thumb 0x1020) =
    .tAsrImm { imm5 := 0, rs := 4, rd := 0 } := by decide

/-- THUMB format 2. -/
theorem test_decode_thumb_format_2 :
  decode .a7 (.thumb 0b0001_1000_0101_0100) =
    .tAddReg { rn := 1, rs := 2, rd := 4 } ∧
  decode .a7 (.thumb 0x1AD5) =
    .tSubReg { rn := 3, rs := 2, rd := 5 } ∧
  decode .a7 (.thumb 0x1CB1) =
    .tAddImm3 { imm3 := 2, rs := 6, rd := 1 } ∧
  decode .a7 (.thumb 0x1E42) =
    .tSubImm3 { imm3 := 1, rs := 0, rd := 2 } := by decide

/-- THUMB format 3. -/
theorem test_decode_thumb_format_3 :
  decode .a7 (.thumb 0b0010_0011_1101_0001) =
    .tMovImm8 { rd := 3, imm8 := 0xd1 } ∧
  decode .a7 (.thumb 0x2D85) =
    .tCmpImm8 { rd := 5, imm8 := 0x85 } ∧
  decode .a7 (.thumb 0x374D) =
    .tAddImm8 { rd := 7, imm8 := 0x4d } ∧
  decode .a7 (.thumb 0x38E9) =
    .tSubImm8 { rd := 0, imm8 := 0xe9 } := by decide

/-- THUMB format 4. -/
theorem test_decode_thumb_format_4_1 :
  decode .a7 (.thumb 0b0100_0000_0001_1010) =
    .tAnd { rs := 3, rd := 2 } ∧
  decode .a7 (.thumb 0x4079) =
    .tEor { rs := 7, rd := 1 } ∧
  decode .a7 (.thumb 0x40AE) =
    .tLslReg { rs := 5, rd := 6 } ∧
  decode .a7 (.thumb 0x40D8) =
    .tLsrReg { rs := 3, rd := 0 } ∧
  decode .a7 (.thumb 0x411A) =
    .tAsrReg { rs := 3, rd := 2 } ∧
  decode .a7 (.thumb 0x4161) =
    .tAdc { rs := 4, rd := 1 } ∧
  decode .a7 (.thumb 0x41BD) =
    .tSbc { rs := 7, rd := 5 } ∧
  decode .a7 (.thumb 0x41C8) =
    .tRorReg { rs := 1, rd := 0 } := by decide

/-- THUMB format 4. -/
theorem test_decode_thumb_format_4_2 :
  decode .a7 (.thumb 0b0100_0010_0011_1010) =
    .tTst { rs := 7, rd := 2 } ∧
  decode .a7 (.thumb 0x425D) =
    .tNeg { rs := 3, rd := 5 } ∧
  decode .a7 (.thumb 0x42BE) =
    .tCmpReg { rs := 7, rd := 6 } ∧
  decode .a7 (.thumb 0x42EC) =
    .tCmn { rs := 5, rd := 4 } ∧
  decode .a7 (.thumb 0x430D) =
    .tOrr { rs := 1, rd := 5 } ∧
  decode .a7 (.thumb 0x435C) =
    .tMul { rs := 3, rd := 4 } ∧
  decode .a7 (.thumb 0x438B) =
    .tBic { rs := 1, rd := 3 } ∧
  decode .a7 (.thumb 0x43DB) =
    .tMvn { rs := 3, rd := 3 } := by decide

/-- THUMB format 5. -/
theorem test_decode_thumb_format_5 :
  decode .a7 (.thumb 0b0100_0100_1101_1110) =
    .tAddHi { h1 := 1, h2 := 1, rsLow := 3, rdLow := 6 } ∧
  decode .a7 (.thumb 0x45A1) =
    .tCmpHi { h1 := 1, h2 := 0, rsLow := 4, rdLow := 1 } ∧
  decode .a7 (.thumb 0x4631) =
    .tMovHi { h1 := 0, h2 := 0, rsLow := 6, rdLow := 1 } ∧
  decode .a7 (.thumb 0x471F) =
    .tBx { h2 := 0, rsLow := 3, sbz := 7 } := by decide

/-- THUMB format 5 (H1 = 1). -/
theorem test_decode_thumb_format_5_h1_1 :
  decode .a9 (.thumb 0b0100_0111_1101_1101) =
    .tBlxReg { h2 := 1, rsLow := 3, sbz := 5 } ∧
  decode .a7 (.thumb 0x4799) =
    .tBxH1 { h2 := 0, rsLow := 3, sbz := 1 } := by decide

/-- THUMB format 6. -/
theorem test_decode_thumb_format_6 :
  decode .a7 (.thumb 0b0100_1100_0100_0011) =
    .tLdrPc { rd := 4, imm8 := 0x43 } := by decide

/-- THUMB format 7. -/
theorem test_decode_thumb_format_7 :
  decode .a7 (.thumb 0b0101_0000_1100_1111) =
    .tStrReg { ro := 3, rb := 1, rd := 7 } ∧
  decode .a7 (.thumb 0x540E) =
    .tStrbReg { ro := 0, rb := 1, rd := 6 } ∧
  decode .a7 (.thumb 0x594B) =
    .tLdrReg { ro := 5, rb := 1, rd := 3 } ∧
  decode .a7 (.thumb 0x5DF3) =
    .tLdrbReg { ro := 7, rb := 6, rd := 3 } := by decide

/-- THUMB format 8. -/
theorem test_decode_thumb_format_8 :
  decode .a7 (.thumb 0b0101_0011_1100_1011) =
    .tStrhReg { ro := 7, rb := 1, rd := 3 } ∧
  decode .a7 (.thumb 0x5738) =
    .tLdsbReg { ro := 4, rb := 7, rd := 0 } ∧
  decode .a7 (.thumb 0x5BA1) =
    .tLdrhReg { ro := 6, rb := 4, rd := 1 } ∧
  decode .a7 (.thumb 0x5FFF) =
    .tLdshReg { ro := 7, rb := 7, rd := 7 } := by decide

/-- THUMB format 9. -/
theorem test_decode_thumb_format_9 :
  decode .a7 (.thumb 0b0110_0011_1110_1000) =
    .tStrImm { imm5 := 15, rb := 5, rd := 0 } ∧
  decode .a7 (.thumb 0x6E95) =
    .tLdrImm { imm5 := 0x1a, rb := 2, rd := 5 } ∧
  decode .a7 (.thumb 0x76FC) =
    .tStrbImm { imm5 := 0x1b, rb := 7, rd := 4 } ∧
  decode .a7 (.thumb 0x7C16) =
    .tLdrbImm { imm5 := 0x10, rb := 2, rd := 6 } := by decide

/-- THUMB format 10. -/
theorem test_decode_thumb_format_10 :
  decode .a7 (.thumb 0b1000_0001_1010_0111) =
    .tStrhImm { imm5 := 6, rb := 4, rd := 7 } ∧
  decode .a7 (.thumb 0x88D5) =
    .tLdrhImm { imm5 := 3, rb := 2, rd := 5 } := by decide

/-- THUMB format 11. -/
theorem test_decode_thumb_format_11 :
  decode .a7 (.thumb 0b1001_0001_1101_1110) =
    .tStrSp { rd := 1, imm8 := 0xde } ∧
  decode .a7 (.thumb 0x9953) =
    .tLdrSp { rd := 1, imm8 := 0x53 } := by decide

/-- THUMB format 12. -/
theorem test_decode_thumb_format_12 :
  decode .a7 (.thumb 0b1010_0110_1011_0001) =
    .tAddPc { rd := 6, imm8 := 0xb1 } ∧
  decode .a7 (.thumb 0xAC3A) =
    .tAddSp { rd := 4, imm8 := 0x3a } := by decide

/-- THUMB format 13. -/
theorem test_decode_thumb_format_13 :
  decode .a7 (.thumb 0b1011_0000_0111_0110) =
    .tIncSp { imm7 := 0x76 } ∧
  decode .a7 (.thumb 0xB08C) =
    .tDecSp { imm7 := 12 } := by decide

/-- THUMB format 14. -/
theorem test_decode_thumb_format_14 :
  decode .a7 (.thumb 0b1011_0100_0001_0000) =
    .tPush { r := 0, rlist := 0x10 } ∧
  decode .a7 (.thumb 0xBC81) =
    .tPop { r := 0, rlist := 0x81 } := by decide

/-- THUMB T_UNK_1011. -/
theorem test_decode_thumb_t_unk_1011 :
  decode .a7 (.thumb 0b1011_1110_0101_1001) =
    .tBkpt { comment := 0x59 } := by decide

/-- THUMB T_UNK_1011 (class pattern of 30_encoding.md rule R150. -/
theorem test_decode_thumb_t_unk_1011_class :
  decode .a7 (.thumb 0b1011_0001_0000_0000) =
    .tUnk1011 0xB100 := by decide

/-- THUMB format 15. -/
theorem test_decode_thumb_format_15 :
  decode .a7 (.thumb 0b1100_0101_0111_1101) =
    .tStmia { rb := 5, rlist := 0x7d } ∧
  decode .a7 (.thumb 0xCFD6) =
    .tLdmia { rb := 7, rlist := 0xd6 } := by decide

/-- THUMB format 16 (cond 0..13). -/
theorem test_decode_thumb_format_16_cond_0_13 :
  decode .a7 (.thumb 0b1101_1101_0001_1000) =
    .tBcond { cond := 13, soffset := 0x18 } := by decide

/-- THUMB T_UNK_DE (format 16 with cond = 0b1110). -/
theorem test_decode_thumb_t_unk_de_format_16_with_cond_0b1110 :
  decode .a7 (.thumb 0b1101_1110_0000_0000) =
    .tUnkDe 0xDE00 := by decide

/-- THUMB format 17. -/
theorem test_decode_thumb_format_17 :
  decode .a7 (.thumb 0b1101_1111_0100_0100) =
    .tSwi { comment := 0x44 } := by decide

/-- THUMB format 18. -/
theorem test_decode_thumb_format_18 :
  decode .a7 (.thumb 0b1110_0110_0010_0101) =
    .tB { offset := 0x625 } := by decide

/-- THUMB format 19. -/
theorem test_decode_thumb_format_19 :
  decode .a7 (.thumb 0b1111_0100_0010_0010) =
    .tBlPrefix { offset := 0x422 } ∧
  decode .a7 (.thumb 0xF993) =
    .tBlSuffix { offset := 0x193 } ∧
  decode .a9 (.thumb 0xEA15) =
    .tBlxSuffix { offset := 0x215 } := by decide

/-- THUMB T_UNK_11101. -/
theorem test_decode_thumb_t_unk_11101 :
  decode .a7 (.thumb 0b1110_1000_0000_0000) =
    .tUnk11101 0xE800 := by decide

/-- A core right after `direct_boot` at 0x02000000 (R573), in the given instruction set, with the words the vectors assume at
0x02000100. -/
def boot (c : CoreId) (thumb : Bool) : State :=
  let s : State := { State.reset with running := c }
  let s := s.setCells .mainRam (writeBytes (writeBytes [] 0x100 .w32 0xAABBCCDD) 0x104 .w32 0x11223344)
  let k := { s.cur with bankR13 := { s.cur.bankR13 with svc := s.par.bootSpSvc.get c, irq := s.par.bootSpIrq.get c },
                        cpsr := if thumb then 0x000000FF else 0x000000DF, booted := true }
  s.setCur ((((k.setReg 13 (s.par.bootSpSys.get c)).setReg 12 0x02000000).setReg 14 0x02000000).setReg 15
    (if thumb then 0x02000004 else 0x02000008))

/-- The answer where there is one. -/
def orReset (x : Res State) : State := match x with | .next t => t | _ => State.reset

/-! The changes a vector makes to that state. -/

def reg (i : BitVec 4) (v : Word) (s : State) : State := s.setX i v
def status (v : Word) (s : State) : State := orReset (writeCpsr v s)
def saved (b : Bank) (v : Word) (s : State) : State := s.setCur { s.cur with spsr := s.cur.spsr.set b v }
def banked14 (b : Bank) (v : Word) (s : State) : State :=
  if s.cur.bank = b then s.setX 14 v else s.setCur { s.cur with bankR14 := s.cur.bankR14.set b v }
def banked13 (b : Bank) (v : Word) (s : State) : State :=
  if s.cur.bank = b then s.setX 13 v else s.setCur { s.cur with bankR13 := s.cur.bankR13.set b v }
def word (a v : Word) (s : State) : State := orReset (store a .w32 v s)

/-- The state a test starts from. -/
def setup (c : CoreId) (thumb : Bool) (fs : List (State → State)) : State := fs.foldl (fun s f => f s) (boot c thumb)

/-- What `f` reads from the state after one ARM instruction. -/
def arm {α : Type} (c : CoreId) (w : Word) (fs : List (State → State)) (f : State → α) : Option α :=
  match exec (decode c (.arm w)) (setup c false fs) with
  | .next t => some (f t)
  | _ => none

/-- What `f` reads from the state after one Thumb instruction. -/
def thumb {α : Type} (c : CoreId) (h : Half) (fs : List (State → State)) (f : State → α) : Option α :=
  match exec (decode c (.thumb h)) (setup c true fs) with
  | .next t => some (f t)
  | _ => none

/-- The fault of one ARM instruction. -/
def armFault (c : CoreId) (w : Word) (fs : List (State → State)) : Option Fault :=
  match exec (decode c (.arm w)) (setup c false fs) with
  | .fault e => some e
  | _ => none

/-- The word at an address, where reading it changes nothing. -/
def wordAt (a : Word) (t : State) : Word := (plainRead t.running a .w32 t).getD 0
/-- N, Z, C, V as four bits. -/
def nzcv (t : State) : Word := t.cur.cpsr >>> 28
/-- One bit of the status register. -/
def flag (i : Nat) (t : State) : Word := (t.cur.cpsr >>> i) &&& 1

/-! One instruction. -/

/-- V6. -/
theorem test_andShiftImm : arm .a7 0xE0110082 [reg 1 0xFFFFFFFF, reg 2 0x80000000] (fun t => [t.x 0, nzcv t]) =
    some [0x00000000, 0b0110] := by decide

/-- V7. -/
theorem test_eorShiftImm : arm .a7 0xE0310001 [status 0x200000DF, reg 1 0x12345678] (fun t => [t.x 0, nzcv t]) =
    some [0x00000000, 0b0110] := by decide

/-- V30. -/
theorem test_subImm : arm .a7 0xE25EF004 [status 0x000000D2, saved .irq 0x0000001F, banked14 .irq 0x02000044] (fun t => [t.cur.cpsr, t.x 15]) =
    some [0x0000001F, 0x02000048] := by decide

/-- V8. -/
theorem test_rsbImm : arm .a7 0xE2710000 [reg 1 0x80000000] (fun t => [t.x 0, nzcv t]) =
    some [0x80000000, 0b1001] := by decide

/-- V21. -/
theorem test_addImm : arm .a7 0xE28F0004 [] (fun t => [t.x 0]) =
    some [0x0200000C] := by decide

/-- V27. -/
theorem test_addImm_2 : arm .a7 0xE28FF008 [] (fun t => [t.x 15]) =
    some [0x02000018] := by decide

/-- V22. -/
theorem test_addShiftImm : arm .a7 0xE08F0001 [reg 1 0x00000000] (fun t => [t.x 0]) =
    some [0x02000008] := by decide

/-- V23. -/
theorem test_addShiftReg : arm .a7 0xE08F0211 [reg 1 0x00000000, reg 2 0x00000000] (fun t => [t.x 0]) =
    some [0x0200000C] := by decide

/-- V11. -/
theorem test_adcShiftImm : arm .a7 0xE0B10002 [status 0x200000DF, reg 1 0xFFFFFFFF, reg 2 0xFFFFFFFF] (fun t => [t.x 0, nzcv t]) =
    some [0xFFFFFFFF, 0b1010] := by decide

/-- V12. -/
theorem test_sbcShiftImm : arm .a7 0xE0D10002 [status 0x000000DF, reg 1 0x00000000, reg 2 0xFFFFFFFF] (fun t => [t.x 0, nzcv t]) =
    some [0x00000000, 0b0100] := by decide

/-- V10. -/
theorem test_rscShiftImm : arm .a7 0xE0F10002 [status 0x000000DF, reg 1 0x00000001, reg 2 0x00000001] (fun t => [t.x 0, nzcv t]) =
    some [0xFFFFFFFF, 0b1000] := by decide

/-- V15. -/
theorem test_tstImm : arm .a7 0xE3110102 [reg 1 0x80000000] (fun t => [nzcv t]) =
    some [0b1010] := by decide

/-- V17. -/
theorem test_tstShiftImm : arm .a7 0xE111F002 [reg 1 0x00000001, reg 2 0x00000001] (fun t => [nzcv t, t.cur.cpsr]) =
    some [0b0000, 0x000000DF] := by decide

/-- V16. -/
theorem test_teqShiftImm : arm .a7 0xE1310002 [status 0x300000DF, reg 1 0x00000005, reg 2 0x00000005] (fun t => [nzcv t]) =
    some [0b0111] := by decide

/-- V13. -/
theorem test_cmpShiftImm : arm .a7 0xE1510002 [reg 1 0x80000000, reg 2 0x00000001] (fun t => [t.x 0, nzcv t]) =
    some [0x00000000, 0b0011] := by decide

/-- V14. -/
theorem test_cmnShiftImm : arm .a7 0xE1710002 [reg 1 0x7FFFFFFF, reg 2 0x00000001] (fun t => [nzcv t]) =
    some [0b1001] := by decide

/-- V18. -/
theorem test_orrShiftImm : arm .a7 0xE1910062 [status 0x200000DF, reg 1 0x00000000, reg 2 0x00000003] (fun t => [t.x 0, nzcv t]) =
    some [0x80000001, 0b1010] := by decide

/-- V2. -/
theorem test_movImm : arm .a7 0xE3B004FF [] (fun t => [t.x 0, nzcv t]) =
    some [0xFF000000, 0b1010] := by decide

/-- V3. -/
theorem test_movImm_2 : arm .a7 0xE3B000FF [status 0x200000DF] (fun t => [t.x 0, nzcv t]) =
    some [0x000000FF, 0b0010] := by decide

/-- V25. -/
theorem test_movShiftImm : arm .a7 0xE1A0F001 [reg 1 0x02000103] (fun t => [t.x 15, flag 5 t]) =
    some [0x02000108, 0] := by decide

/-- V26. -/
theorem test_movShiftImm_2 : arm .a9 0xE1A0F001 [reg 1 0x02000103] (fun t => [t.x 15, flag 5 t]) =
    some [0x02000108, 0] := by decide

/-- V24. -/
theorem test_movShiftReg : arm .a7 0xE1A0021F [reg 2 0x00000000] (fun t => [t.x 0]) =
    some [0x0200000C] := by decide

/-- V19. -/
theorem test_bicImm : arm .a7 0xE3C100FF [status 0xF00000DF, reg 1 0x12345678] (fun t => [t.x 0, nzcv t]) =
    some [0x12345600, 0b1111] := by decide

/-- V20. -/
theorem test_mvnImm : arm .a7 0xE3F00000 [] (fun t => [t.x 0, nzcv t]) =
    some [0xFFFFFFFF, 0b1000] := by decide

/-- V118. -/
theorem test_mul : arm .a7 0xE0100291 [status 0x300000df, reg 1 0xFFFFFFFF, reg 2 0xFFFFFFFF] (fun t => [t.x 0, nzcv t]) =
    some [1, 3] := by decide

/-- V120. -/
theorem test_mla : arm .a7 0xE0203291 [reg 1 0x7FFFFFFF, reg 2 0x00000002, reg 3 0x00000003] (fun t => [t.x 0, nzcv t]) =
    some [0x00000001, 0b0000] := by decide

/-- V121. -/
theorem test_umull : arm .a7 0xE0910392 [reg 2 0xFFFFFFFF, reg 3 0xFFFFFFFF] (fun t => [t.x 0, t.x 1, nzcv t]) =
    some [0x00000001, 0xFFFFFFFE, 0b1000] := by decide

/-- V124. -/
theorem test_umlal : arm .a7 0xE0A10392 [reg 0 0xFFFFFFFF, reg 1 0x00000000, reg 2 0x00000001, reg 3 0x00000001] (fun t => [t.x 0, t.x 1]) =
    some [0x00000000, 0x00000001] := by decide

/-- V122. -/
theorem test_smull : arm .a7 0xE0D10392 [reg 2 0x80000000, reg 3 0x80000000] (fun t => [t.x 0, t.x 1, nzcv t]) =
    some [0x00000000, 0x40000000, 0b0000] := by decide

/-- V125. -/
theorem test_smlal : arm .a7 0xE0F10392 [reg 0 0x00000001, reg 1 0x00000000, reg 2 0xFFFFFFFF, reg 3 0x00000001] (fun t => [t.x 0, t.x 1, nzcv t]) =
    some [0x00000000, 0x00000000, 0b0100] := by decide

/-- V91. -/
theorem test_swp : arm .a7 0xE1010092 [reg 1 0x02000100, reg 2 0x55555555, word 0x02000100 0xAABBCCDD, word 0x02000104 0x11223344] (fun t => [t.x 0, wordAt 0x02000100 t]) =
    some [0xAABBCCDD, 0x55555555] := by decide

/-- V92. -/
theorem test_swp_2 : arm .a7 0xE1010090 [reg 0 0x55555555, reg 1 0x02000101, word 0x02000100 0xAABBCCDD, word 0x02000104 0x11223344] (fun t => [t.x 0, wordAt 0x02000100 t]) =
    some [0xDDAABBCC, 0x55555555] := by decide

/-- V93. -/
theorem test_swpb : arm .a7 0xE1410092 [reg 1 0x02000101, reg 2 0x123456EE, word 0x02000100 0xAABBCCDD, word 0x02000104 0x11223344] (fun t => [t.x 0, wordAt 0x02000100 t]) =
    some [0x000000CC, 0xAABBEEDD] := by decide

/-- V56. -/
theorem test_strhImm : arm .a7 0xE1C100B3 [reg 0 0x1234BEEF, reg 1 0x02000100, word 0x02000100 0xAABBCCDD, word 0x02000104 0x11223344] (fun t => [wordAt 0x02000100 t]) =
    some [0xBEEFCCDD] := by decide

/-- V53. -/
theorem test_ldrhReg : arm .a7 0xE01100B2 [reg 1 0x02000104, reg 2 0x00000004, word 0x02000100 0xAABBCCDD, word 0x02000104 0x11223344] (fun t => [t.x 0, t.x 1]) =
    some [0x00003344, 0x02000100] := by decide

/-- V48. -/
theorem test_ldrhImm : arm .a7 0xE1D100B2 [reg 1 0x02000100, word 0x02000100 0xAABBCCDD, word 0x02000104 0x11223344] (fun t => [t.x 0]) =
    some [0x0000AABB] := by decide

/-- V46. -/
theorem test_ldrsbImm : arm .a7 0xE1D100D1 [reg 1 0x02000100, word 0x02000100 0xAABBCCDD, word 0x02000104 0x11223344] (fun t => [t.x 0]) =
    some [0xFFFFFFCC] := by decide

/-- V51. -/
theorem test_ldrshImm : arm .a7 0xE1D100F2 [reg 1 0x02000100, word 0x02000100 0xAABBCCDD, word 0x02000104 0x11223344] (fun t => [t.x 0]) =
    some [0xFFFFAABB] := by decide

/-- V52. -/
theorem test_ldrshImm_2 : arm .a7 0xE1D100F3 [reg 1 0x02000100, word 0x02000100 0xAABBCCDD, word 0x02000104 0x11223344] (fun t => [t.x 0]) =
    some [0xFFFFFFAA] := by decide

/-- V61. -/
theorem test_ldrdImm : arm .a9 0xE1C120D0 [reg 1 0x02000100, word 0x02000100 0xAABBCCDD, word 0x02000104 0x11223344] (fun t => [t.x 2, t.x 3]) =
    some [0xAABBCCDD, 0x11223344] := by decide

/-- V62. -/
theorem test_strdImm : arm .a9 0xE1E120F8 [reg 1 0x02000100, reg 2 0x0A0B0C0D, reg 3 0x01020304] (fun t => [t.x 1, wordAt 0x02000108 t, wordAt 0x0200010C t]) =
    some [0x02000108, 0x0A0B0C0D, 0x01020304] := by decide

/-- V64. -/
theorem test_unkDoubleA7 : arm .a7 0xE1C120D0 [reg 1 0x02000100, word 0x02000100 0xAABBCCDD, word 0x02000104 0x11223344] (fun t => [t.x 2, t.x 3, (t.cur.unknownLog.headD (0, 0)).1, (t.cur.unknownLog.headD (0, 0)).2]) =
    some [0x00000000, 0x00000000, 0x02000000, 0xE1C120D0] := by decide

/-- V106. -/
theorem test_mrs : arm .a7 0xE10F0000 [status 0xA00000DF] (fun t => [t.x 0]) =
    some [0xA00000DF] := by decide

/-- V107. -/
theorem test_mrs_2 : arm .a7 0xE14F0000 [status 0x000000D3, saved .svc 0x12345678] (fun t => [t.x 0]) =
    some [0x12345678] := by decide

/-- V110. -/
theorem test_msrCpsrReg : arm .a7 0xE121F000 [reg 0 0x92, reg 13 0x0380FD80] (fun t => [t.cur.cpsr, t.x 13, t.x 14, t.cur.bankR13.get .usr]) =
    some [0x92, 0x0380ff80, 0, 0x0380FD80] := by decide

/-- V111. -/
theorem test_msrCpsrReg_2 : arm .a7 0xE121F000 [reg 0 0x0000003F] (fun t => [t.cur.cpsr]) =
    some [0x0000001F] := by decide

/-- V114. -/
theorem test_msrSpsrReg : arm .a7 0xE169F000 [status 0x000000D3, reg 0 0xA00000D0, saved .svc 0x12345678] (fun t => [t.cur.cpsr, (t.cur.spsr.get .svc).getD 0]) =
    some [0xd3, 0xA03456D0] := by decide

/-- V109. -/
theorem test_msrCpsrImm : arm .a7 0xE328F20F [] (fun t => [t.cur.cpsr]) =
    some [0xF00000DF] := by decide

/-- V98. -/
theorem test_bx : arm .a7 0xE12FFF11 [reg 1 0x02000101] (fun t => [t.x 15, flag 5 t]) =
    some [0x02000104, 1] := by decide

/-- V99. -/
theorem test_bx_2 : arm .a7 0xE12FFF11 [reg 1 0x02000102] (fun t => [t.x 15, flag 5 t]) =
    some [0x02000108, 0] := by decide

/-- V101. -/
theorem test_blxReg : arm .a9 0xE12FFF31 [reg 1 0x02000101] (fun t => [t.x 15, flag 5 t, t.x 14]) =
    some [0x02000104, 1, 0x02000004] := by decide

/-- V162. -/
theorem test_bkpt : arm .a9 0xE1200070 [] (fun t => [(t.cur.unknownLog.headD (0, 0)).1, (t.cur.unknownLog.headD (0, 0)).2, t.cur.cpsr]) =
    some [0x02000000, 0xE1200070, 0x000000DF] := by decide

/-- V126. -/
theorem test_clz : arm .a9 0xE16F0F11 [reg 1 0x00000000] (fun t => [t.x 0]) =
    some [0x00000020] := by decide

/-- V127. -/
theorem test_clz_2 : arm .a9 0xE16F0F11 [reg 1 0x80000000] (fun t => [t.x 0]) =
    some [0x00000000] := by decide

/-- V130. -/
theorem test_qadd : arm .a9 0xE1020051 [reg 1 0x7FFFFFFF, reg 2 0x00000001] (fun t => [t.x 0, flag 27 t, nzcv t]) =
    some [0x7FFFFFFF, 1, 0b0000] := by decide

/-- V132. -/
theorem test_qsub : arm .a9 0xE1220051 [reg 1 0x80000000, reg 2 0x00000001] (fun t => [t.x 0, flag 27 t]) =
    some [0x80000000, 1] := by decide

/-- V133. -/
theorem test_qdadd : arm .a9 0xE1420051 [reg 1 0x00000010, reg 2 0x40000000] (fun t => [t.x 0, flag 27 t]) =
    some [0x7FFFFFFF, 1] := by decide

/-- V134. -/
theorem test_qdsub : arm .a9 0xE1620051 [reg 1 0, reg 2 0xC0000000] (fun t => [t.x 0, flag 27 t]) =
    some [0x7fffffff, 1] := by decide

/-- V138. -/
theorem test_smlaXy : arm .a9 0xE1003281 [reg 1 0x00007FFF, reg 2 0x00007FFF, reg 3 0x7FFFFFFF] (fun t => [t.x 0, flag 27 t]) =
    some [0xBFFF0000, 1] := by decide

/-- V141. -/
theorem test_smlawY : arm .a9 0xE1203281 [reg 1 0x7FFFFFFF, reg 2 0x00007FFF, reg 3 0x7FFFFFFF] (fun t => [t.x 0, flag 27 t]) =
    some [0xBFFF7FFE, 1] := by decide

/-- V139. -/
theorem test_smulwY : arm .a9 0xE12002A1 [reg 1 0x00010000, reg 2 0x00004000] (fun t => [t.x 0]) =
    some [0x00004000] := by decide

/-- V142. -/
theorem test_smlalXy : arm .a9 0xE1410382 [reg 0 0xFFFFFFFF, reg 1 0x00000000, reg 2 0x00000001, reg 3 0x00000001] (fun t => [t.x 0, t.x 1, flag 27 t]) =
    some [0x00000000, 0x00000001, 0] := by decide

/-- V135. -/
theorem test_smulXy : arm .a9 0xE1600281 [reg 1 0x0000FFFF, reg 2 0x00008000] (fun t => [t.x 0, flag 27 t]) =
    some [0x00008000, 0] := by decide

/-- V54. -/
theorem test_strImm : arm .a7 0xE5810003 [reg 0 0xCAFEBABE, reg 1 0x02000100, word 0x02000100 0xAABBCCDD, word 0x02000104 0x11223344] (fun t => [wordAt 0x02000100 t, wordAt 0x02000104 t]) =
    some [0xCAFEBABE, 0x11223344] := by decide

/-- V34. -/
theorem test_ldrImm : arm .a7 0xE5910000 [reg 1 0x02000100, word 0x02000100 0xAABBCCDD, word 0x02000104 0x11223344] (fun t => [t.x 0]) =
    some [0xAABBCCDD] := by decide

/-- V35. -/
theorem test_ldrImm_2 : arm .a7 0xE5910000 [reg 1 0x02000101, word 0x02000100 0xAABBCCDD, word 0x02000104 0x11223344] (fun t => [t.x 0]) =
    some [0xDDAABBCC] := by decide

/-- V41. -/
theorem test_ldrReg : arm .a7 0xE7910102 [reg 1 0x02000100, reg 2 0x00000001, word 0x02000100 0xAABBCCDD, word 0x02000104 0x11223344] (fun t => [t.x 0]) =
    some [0x11223344] := by decide

/-- V55. -/
theorem test_strbImm : arm .a7 0xE5C10002 [reg 0 0x123456EE, reg 1 0x02000100, word 0x02000100 0xAABBCCDD, word 0x02000104 0x11223344] (fun t => [wordAt 0x02000100 t]) =
    some [0xAAEECCDD] := by decide

/-- V45. -/
theorem test_ldrbImm : arm .a7 0xE5D10001 [reg 1 0x02000100, word 0x02000100 0xAABBCCDD, word 0x02000104 0x11223344] (fun t => [t.x 0]) =
    some [0x000000CC] := by decide

/-- V68. -/
theorem test_ldrtImm : arm .a7 0xE4B10004 [reg 1 0x02000100, word 0x02000100 0xAABBCCDD, word 0x02000104 0x11223344] (fun t => [t.x 0, t.x 1]) =
    some [0xAABBCCDD, 0x02000104] := by decide

/-- V73. -/
theorem test_stm : arm .a7 0xE920000E [reg 0 0x02000110, reg 1 0x000000A1, reg 2 0x000000A2, reg 3 0x000000A3] (fun t => [t.x 0, wordAt 0x02000104 t, wordAt 0x02000108 t, wordAt 0x0200010C t]) =
    some [0x02000104, 0x000000A1, 0x000000A2, 0x000000A3] := by decide

/-- V74. -/
theorem test_stm_2 : arm .a7 0xE8808002 [reg 0 0x02000100, reg 1 0x000000A1] (fun t => [t.x 0, wordAt 0x02000100 t, wordAt 0x02000104 t]) =
    some [0x02000100, 0x000000A1, 0x0200000C] := by decide

/-- V69. -/
theorem test_ldm : arm .a7 0xE8B0000E [reg 0 0x02000100, word 0x02000100 0x00000011, word 0x02000104 0x00000022, word 0x02000108 0x00000033, word 0x0200010C 0x00000044] (fun t => [t.x 0, t.x 1, t.x 2, t.x 3]) =
    some [0x0200010C, 0x00000011, 0x00000022, 0x00000033] := by decide

/-- V70. -/
theorem test_ldm_2 : arm .a7 0xE9B0000E [reg 0 0x02000100, word 0x02000100 0x00000011, word 0x02000104 0x00000022, word 0x02000108 0x00000033, word 0x0200010C 0x00000044] (fun t => [t.x 0, t.x 1, t.x 2, t.x 3]) =
    some [0x0200010C, 0x00000022, 0x00000033, 0x00000044] := by decide

/-- V94. -/
theorem test_b : arm .a7 0xEA000000 [] (fun t => [t.x 15, t.x 14]) =
    some [0x02000010, 0x02000000] := by decide

/-- V96. -/
theorem test_bl : arm .a7 0xEB000040 [] (fun t => [t.x 15, t.x 14]) =
    some [0x02000110, 0x02000004] := by decide

/-- V103. -/
theorem test_blxLabel : arm .a9 0xFB000040 [] (fun t => [t.x 15, flag 5 t, t.x 14]) =
    some [0x0200010E, 1, 0x02000004] := by decide

/-- V65. -/
theorem test_pld : arm .a9 0xF5D1F000 [reg 1 0x01000000] (fun t => [BitVec.ofNat 32 t.cur.unknownLog.length]) =
    some [0] := by decide

/-- V148. -/
theorem test_mrc : arm .a9 0xEE110F10 [] (fun t => [t.x 0]) =
    some [0x00002078] := by decide

/-- V152. -/
theorem test_mrc_2 : arm .a9 0xEE11FF10 [status 0x000000DF] (fun t => [nzcv t]) =
    some [0b0000] := by decide

/-- V156. -/
theorem test_coprocOther : arm .a7 0xEE110F10 [reg 0 0x00000055] (fun t => [t.x 0, (t.cur.unknownLog.headD (0, 0)).1, (t.cur.unknownLog.headD (0, 0)).2]) =
    some [0x00000055, 0x02000000, 0xEE110F10] := by decide

/-- V144. -/
theorem test_swi : arm .a7 0xEF123456 [status 0x6000001F] (fun t => [t.cur.cpsr, (t.cur.spsr.get .svc).getD 0, t.x 14, t.x 15, t.x 13]) =
    some [0x60000093, 0x6000001F, 0x02000004, 0x00000010, 0x0380FFC0] := by decide

/-- V143. -/
theorem test_unkMiscA : arm .a7 0xE1600281 [reg 0 0x00000055, reg 1 0x00000002, reg 2 0x00000003] (fun t => [t.x 0, (t.cur.unknownLog.headD (0, 0)).1, (t.cur.unknownLog.headD (0, 0)).2]) =
    some [0x00000055, 0x02000000, 0xE1600281] := by decide

/-- V102. -/
theorem test_unkMiscB : arm .a7 0xE12FFF31 [reg 1 0x02000101] (fun t => [flag 5 t, t.x 14, (t.cur.unknownLog.headD (0, 0)).1, (t.cur.unknownLog.headD (0, 0)).2]) =
    some [0, 0x02000000, 0x02000000, 0xE12FFF31] := by decide

/-- V160. -/
theorem test_unkMedia : arm .a7 0xE7F000F0 [] (fun t => [(t.cur.unknownLog.headD (0, 0)).1, (t.cur.unknownLog.headD (0, 0)).2, t.cur.cpsr]) =
    some [0x02000000, 0xE7F000F0, 0x000000DF] := by decide

/-- V159. -/
theorem test_unkLdcStc : arm .a7 0xED900100 [] (fun t => [(t.cur.unknownLog.headD (0, 0)).1, (t.cur.unknownLog.headD (0, 0)).2]) =
    some [0x02000000, 0xED900100] := by decide

/-- V158. -/
theorem test_unkCdp : arm .a9 0xEE010F00 [] (fun t => [(t.cur.unknownLog.headD (0, 0)).1, (t.cur.unknownLog.headD (0, 0)).2]) =
    some [0x02000000, 0xEE010F00] := by decide

/-- V163. -/
theorem test_tLslImm : thumb .a7 0x0008 [status 0x200000FF, reg 1 0x80000000] (fun t => [t.x 0, nzcv t]) =
    some [0x80000000, 0b1010] := by decide

/-- V165. -/
theorem test_tLsrImm : thumb .a7 0x0808 [reg 1 0x80000001] (fun t => [t.x 0, nzcv t]) =
    some [0x00000000, 0b0110] := by decide

/-- V166. -/
theorem test_tAsrImm : thumb .a7 0x1008 [reg 1 0x80000001] (fun t => [t.x 0, nzcv t]) =
    some [0xFFFFFFFF, 0b1010] := by decide

/-- V168. -/
theorem test_tAddReg : thumb .a7 0x1888 [reg 1 0x80000000, reg 2 0x80000000] (fun t => [t.x 0, nzcv t]) =
    some [0x00000000, 0b0111] := by decide

/-- V169. -/
theorem test_tSubReg : thumb .a7 0x1A88 [reg 1 0x80000000, reg 2 0x00000001] (fun t => [t.x 0, nzcv t]) =
    some [0x7FFFFFFF, 0b0011] := by decide

/-- V170. -/
theorem test_tAddImm3 : thumb .a7 0x1C08 [status 0x300000FF, reg 1 0x80000000] (fun t => [t.x 0, nzcv t]) =
    some [0x80000000, 0b1000] := by decide

/-- V171. -/
theorem test_tSubImm3 : thumb .a7 0x1FC8 [reg 1 0x00000007] (fun t => [t.x 0, nzcv t]) =
    some [0x00000000, 0b0110] := by decide

/-- V172. -/
theorem test_tMovImm8 : thumb .a7 0x2000 [status 0xB00000FF] (fun t => [t.x 0, nzcv t]) =
    some [0x00000000, 0b0111] := by decide

/-- V173. -/
theorem test_tCmpImm8 : thumb .a7 0x28FF [reg 0 0x000000FE] (fun t => [nzcv t]) =
    some [0b1000] := by decide

/-- V174. -/
theorem test_tAddImm8 : thumb .a7 0x30FF [reg 0 0xFFFFFF01] (fun t => [t.x 0, nzcv t]) =
    some [0x00000000, 0b0110] := by decide

/-- V175. -/
theorem test_tSubImm8 : thumb .a7 0x3801 [reg 0 0x80000000] (fun t => [t.x 0, nzcv t]) =
    some [0x7FFFFFFF, 0b0011] := by decide

/-- V176. -/
theorem test_tAnd : thumb .a7 0x4008 [status 0x300000FF, reg 0 0xF0F0F0F0, reg 1 0x0FF00FF0] (fun t => [t.x 0, nzcv t]) =
    some [0x00F000F0, 0b0011] := by decide

/-- V177. -/
theorem test_tEor : thumb .a7 0x4048 [reg 0 0xF0F0F0F0, reg 1 0xF0F0F0F0] (fun t => [t.x 0, nzcv t]) =
    some [0x00000000, 0b0100] := by decide

/-- V178. -/
theorem test_tLslReg : thumb .a7 0x4088 [reg 0 0x80000001, reg 1 0x00000020] (fun t => [t.x 0, nzcv t]) =
    some [0x00000000, 0b0110] := by decide

/-- V180. -/
theorem test_tLsrReg : thumb .a7 0x40C8 [status 0x200000FF, reg 0 0x80000001, reg 1 0x00000021] (fun t => [t.x 0, nzcv t]) =
    some [0x00000000, 0b0100] := by decide

/-- V181. -/
theorem test_tAsrReg : thumb .a7 0x4108 [reg 0 0x80000001, reg 1 0x000000FF] (fun t => [t.x 0, nzcv t]) =
    some [0xFFFFFFFF, 0b1010] := by decide

/-- V182. -/
theorem test_tAdc : thumb .a7 0x4148 [status 0x200000FF, reg 0 0x7FFFFFFF, reg 1 0x00000000] (fun t => [t.x 0, nzcv t]) =
    some [0x80000000, 0b1001] := by decide

/-- V183. -/
theorem test_tSbc : thumb .a7 0x4188 [status 0x000000FF, reg 0 0x00000000, reg 1 0x00000000] (fun t => [t.x 0, nzcv t]) =
    some [0xFFFFFFFF, 0b1000] := by decide

/-- V184. -/
theorem test_tRorReg : thumb .a7 0x41C8 [reg 0 0x80000001, reg 1 0x00000020] (fun t => [t.x 0, nzcv t]) =
    some [0x80000001, 0b1010] := by decide

/-- V186. -/
theorem test_tTst : thumb .a7 0x4208 [status 0x200000FF, reg 0 0xF0F0F0F0, reg 1 0x0F0F0F0F] (fun t => [t.x 0, nzcv t]) =
    some [0xF0F0F0F0, 0b0110] := by decide

/-- V187. -/
theorem test_tNeg : thumb .a7 0x4248 [reg 1 0x80000000] (fun t => [t.x 0, nzcv t]) =
    some [0x80000000, 0b1001] := by decide

/-- V189. -/
theorem test_tCmpReg : thumb .a7 0x4288 [reg 0 0x7FFFFFFF, reg 1 0xFFFFFFFF] (fun t => [nzcv t]) =
    some [0b1001] := by decide

/-- V190. -/
theorem test_tCmn : thumb .a7 0x42C8 [reg 0 0x00000001, reg 1 0xFFFFFFFF] (fun t => [nzcv t]) =
    some [0b0110] := by decide

/-- V191. -/
theorem test_tOrr : thumb .a7 0x4308 [reg 0 0xF0F0F0F0, reg 1 0x0FF00FF0] (fun t => [t.x 0, nzcv t]) =
    some [0xFFF0FFF0, 0b1000] := by decide

/-- V192. -/
theorem test_tMul : thumb .a7 0x4348 [status 0x300000FF, reg 0 0x00010001, reg 1 0x00010001] (fun t => [t.x 0, nzcv t]) =
    some [0x00020001, 0b0011] := by decide

/-- V193. -/
theorem test_tBic : thumb .a7 0x4388 [reg 0 0xF0F0F0F0, reg 1 0x0FF00FF0] (fun t => [t.x 0, nzcv t]) =
    some [0xF000F000, 0b1000] := by decide

/-- V194. -/
theorem test_tMvn : thumb .a7 0x43C8 [reg 1 0xFFFFFFFF] (fun t => [t.x 0, nzcv t]) =
    some [0x00000000, 0b0100] := by decide

/-- V195. -/
theorem test_tAddHi : thumb .a7 0x4488 [reg 8 0xFFFFFFFF, reg 1 0x00000001] (fun t => [t.x 8, nzcv t]) =
    some [0x00000000, 0b0000] := by decide

/-- V198. -/
theorem test_tCmpHi : thumb .a7 0x45C8 [reg 8 0x00000005, reg 9 0x00000005] (fun t => [nzcv t]) =
    some [0b0110] := by decide

/-- V199. -/
theorem test_tMovHi : thumb .a7 0x4680 [status 0x800000FF, reg 0 0x00000000] (fun t => [t.x 8, nzcv t]) =
    some [0x00000000, 0b1000] := by decide

/-- V202. -/
theorem test_tBx : thumb .a7 0x4700 [reg 0 0x02000100] (fun t => [t.x 15, flag 5 t]) =
    some [0x02000108, 0] := by decide

/-- V203. -/
theorem test_tBx_2 : thumb .a7 0x4700 [reg 0 0x02000102] (fun t => [t.x 15, flag 5 t]) =
    some [0x02000108, 0] := by decide

/-- V208. -/
theorem test_tBlxReg : thumb .a9 0x4788 [reg 1 0x02000100] (fun t => [t.x 15, flag 5 t, t.x 14]) =
    some [0x02000108, 0, 0x02000003] := by decide

/-- V209. -/
theorem test_tBxH1 : thumb .a7 0x4788 [reg 1 0x02000100] (fun t => [t.x 15, flag 5 t, t.x 14, BitVec.ofNat 32 t.cur.unknownLog.length]) =
    some [0x02000108, 0, 0x02000000, 0] := by decide

/-- V210. -/
theorem test_tLdrPc : thumb .a7 0x483F [word 0x02000100 0xAABBCCDD, word 0x02000104 0x11223344] (fun t => [t.x 0]) =
    some [0xAABBCCDD] := by decide

/-- V212. -/
theorem test_tStrReg : thumb .a7 0x5088 [reg 0 0xCAFEBABE, reg 1 0x02000100, reg 2 0x00000006, word 0x02000100 0xAABBCCDD, word 0x02000104 0x11223344] (fun t => [wordAt 0x02000100 t, wordAt 0x02000104 t]) =
    some [0xAABBCCDD, 0xCAFEBABE] := by decide

/-- V213. -/
theorem test_tStrbReg : thumb .a7 0x5488 [reg 0 0x000000EE, reg 1 0x02000100, reg 2 0x00000003, word 0x02000100 0xAABBCCDD, word 0x02000104 0x11223344] (fun t => [wordAt 0x02000100 t]) =
    some [0xEEBBCCDD] := by decide

/-- V214. -/
theorem test_tLdrReg : thumb .a7 0x5888 [reg 1 0x02000100, reg 2 0x00000001, word 0x02000100 0xAABBCCDD, word 0x02000104 0x11223344] (fun t => [t.x 0]) =
    some [0xDDAABBCC] := by decide

/-- V215. -/
theorem test_tLdrbReg : thumb .a7 0x5C88 [reg 1 0x02000100, reg 2 0x00000003, word 0x02000100 0xAABBCCDD, word 0x02000104 0x11223344] (fun t => [t.x 0]) =
    some [0x000000AA] := by decide

/-- V216. -/
theorem test_tStrhReg : thumb .a7 0x5288 [reg 0 0x0000BEEF, reg 1 0x02000100, reg 2 0x00000002, word 0x02000100 0xAABBCCDD, word 0x02000104 0x11223344] (fun t => [wordAt 0x02000100 t]) =
    some [0xBEEFCCDD] := by decide

/-- V217. -/
theorem test_tLdsbReg : thumb .a7 0x5688 [reg 1 0x02000100, reg 2 0x00000000, word 0x02000100 0xAABBCCDD, word 0x02000104 0x11223344] (fun t => [t.x 0]) =
    some [0xFFFFFFDD] := by decide

/-- V218. -/
theorem test_tLdrhReg : thumb .a7 0x5A88 [reg 1 0x02000100, reg 2 0x00000002, word 0x02000100 0xAABBCCDD, word 0x02000104 0x11223344] (fun t => [t.x 0]) =
    some [0x0000AABB] := by decide

/-- V220. -/
theorem test_tLdshReg : thumb .a7 0x5E88 [reg 1 0x02000100, reg 2 0x00000000, word 0x02000100 0xAABBCCDD, word 0x02000104 0x11223344] (fun t => [t.x 0]) =
    some [0xFFFFCCDD] := by decide

/-- V221. -/
theorem test_tLdshReg_2 : thumb .a7 0x5E88 [reg 1 0x02000100, reg 2 0x00000001, word 0x02000100 0xAABBCCDD, word 0x02000104 0x11223344] (fun t => [t.x 0]) =
    some [0xFFFFFFCC] := by decide

/-- V222. -/
theorem test_tStrImm : thumb .a7 0x6048 [reg 0 0x5A5A5A5A, reg 1 0x02000100, word 0x02000100 0xAABBCCDD, word 0x02000104 0x11223344] (fun t => [wordAt 0x02000104 t]) =
    some [0x5A5A5A5A] := by decide

/-- V223. -/
theorem test_tLdrImm : thumb .a7 0x6FC8 [reg 1 0x02000088, word 0x02000100 0xAABBCCDD, word 0x02000104 0x11223344] (fun t => [t.x 0]) =
    some [0x11223344] := by decide

/-- V225. -/
theorem test_tStrbImm : thumb .a7 0x77C8 [reg 0 0x000001FF, reg 1 0x020000E1, word 0x02000100 0xAABBCCDD, word 0x02000104 0x11223344] (fun t => [wordAt 0x02000100 t]) =
    some [0xAABBCCFF] := by decide

/-- V226. -/
theorem test_tLdrbImm : thumb .a7 0x7948 [reg 1 0x02000100, word 0x02000100 0xAABBCCDD, word 0x02000104 0x11223344] (fun t => [t.x 0]) =
    some [0x00000033] := by decide

/-- V227. -/
theorem test_tStrhImm : thumb .a7 0x80C8 [reg 0 0xFFFF1234, reg 1 0x02000100, word 0x02000100 0xAABBCCDD, word 0x02000104 0x11223344] (fun t => [wordAt 0x02000104 t]) =
    some [0x12343344] := by decide

/-- V228. -/
theorem test_tLdrhImm : thumb .a7 0x88C8 [reg 1 0x02000100, word 0x02000100 0xAABBCCDD, word 0x02000104 0x11223344] (fun t => [t.x 0]) =
    some [0x00001122] := by decide

/-- V229. -/
theorem test_tStrSp : thumb .a7 0x9001 [reg 0 0x00000077, reg 13 0x02000100, word 0x02000100 0xAABBCCDD, word 0x02000104 0x11223344] (fun t => [wordAt 0x02000104 t]) =
    some [0x00000077] := by decide

/-- V230. -/
theorem test_tLdrSp : thumb .a7 0x9AFF [reg 13 0x01FFFD08, word 0x02000100 0xAABBCCDD, word 0x02000104 0x11223344] (fun t => [t.x 2]) =
    some [0x11223344] := by decide

/-- V231. -/
theorem test_tAddPc : thumb .a7 0xA002 [] (fun t => [t.x 0]) =
    some [0x0200000C] := by decide

/-- V233. -/
theorem test_tAddSp : thumb .a7 0xA8FF [reg 13 0x03000000] (fun t => [t.x 0]) =
    some [0x030003FC] := by decide

/-- V234. -/
theorem test_tIncSp : thumb .a7 0xB07F [status 0x000000FF, reg 13 0x03000000] (fun t => [t.x 13, nzcv t]) =
    some [0x030001FC, 0b0000] := by decide

/-- V235. -/
theorem test_tDecSp : thumb .a7 0xB081 [reg 13 0x03000000] (fun t => [t.x 13]) =
    some [0x02FFFFFC] := by decide

/-- V236. -/
theorem test_tPush : thumb .a7 0xB581 [reg 0 0x000000A0, reg 7 0x000000A7, reg 13 0x02000110, reg 14 0x000000AE] (fun t => [t.x 13, wordAt 0x02000104 t, wordAt 0x02000108 t, wordAt 0x0200010C t]) =
    some [0x02000104, 0x000000A0, 0x000000A7, 0x000000AE] := by decide

/-- V240. -/
theorem test_tPush_2 : thumb .a7 0xB400 [reg 13 0x02000140] (fun t => [t.x 13, wordAt 0x02000100 t]) =
    some [0x02000100, 0x02000006] := by decide

/-- V237. -/
theorem test_tPop : thumb .a7 0xBD01 [reg 13 0x02000100, word 0x02000100 0x00000007, word 0x02000104 0x02000201] (fun t => [t.x 0, t.x 13, t.x 15, flag 5 t]) =
    some [0x00000007, 0x02000108, 0x02000204, 1] := by decide

/-- V238. -/
theorem test_tPop_2 : thumb .a7 0xBD01 [reg 13 0x02000100, word 0x02000100 0x00000007, word 0x02000104 0x02000200] (fun t => [t.x 15, flag 5 t]) =
    some [0x02000204, 1] := by decide

/-- V267. -/
theorem test_tBkpt : thumb .a7 0xBE00 [] (fun t => [(t.cur.unknownLog.headD (0, 0)).1, (t.cur.unknownLog.headD (0, 0)).2]) =
    some [0x02000000, 0xBE00] := by decide

/-- V268. -/
theorem test_tUnk1011 : thumb .a7 0xB100 [] (fun t => [(t.cur.unknownLog.headD (0, 0)).1, (t.cur.unknownLog.headD (0, 0)).2]) =
    some [0x02000000, 0xB100] := by decide

/-- V242. -/
theorem test_tStmia : thumb .a7 0xC006 [reg 0 0x02000100, reg 1 0x000000A1, reg 2 0x000000A2] (fun t => [t.x 0, wordAt 0x02000100 t, wordAt 0x02000104 t]) =
    some [0x02000108, 0x000000A1, 0x000000A2] := by decide

/-- V243. -/
theorem test_tStmia_2 : thumb .a7 0xC103 [reg 0 0x000000A0, reg 1 0x02000100] (fun t => [t.x 1, wordAt 0x02000104 t]) =
    some [0x02000108, 0x02000108] := by decide

/-- V245. -/
theorem test_tLdmia : thumb .a7 0xC806 [reg 0 0x02000100, word 0x02000100 0xAABBCCDD, word 0x02000104 0x11223344] (fun t => [t.x 0, t.x 1, t.x 2]) =
    some [0x02000108, 0xAABBCCDD, 0x11223344] := by decide

/-- V246. -/
theorem test_tLdmia_2 : thumb .a7 0xC906 [reg 1 0x02000100, word 0x02000100 0xAABBCCDD, word 0x02000104 0x11223344] (fun t => [t.x 1, t.x 2]) =
    some [0xAABBCCDD, 0x11223344] := by decide

/-- V253. -/
theorem test_tBcond : thumb .a7 0xDC00 [status 0x900000FF] (fun t => [t.x 15]) =
    some [0x02000008] := by decide

/-- V254. -/
theorem test_tUnkDe : thumb .a7 0xDE00 [] (fun t => [(t.cur.unknownLog.headD (0, 0)).1, (t.cur.unknownLog.headD (0, 0)).2]) =
    some [0x02000000, 0xDE00] := by decide

/-- V255. -/
theorem test_tSwi : thumb .a7 0xDF12 [status 0x0000003F] (fun t => [t.cur.cpsr, (t.cur.spsr.get .svc).getD 0, t.x 14, t.x 15]) =
    some [0x00000093, 0x0000003F, 0x02000002, 0x00000010] := by decide

/-- V257. -/
theorem test_tB : thumb .a7 0xE7FE [] (fun t => [t.x 15]) =
    some [0x02000004] := by decide

/-- V260. -/
theorem test_tBlPrefix : thumb .a7 0xF001 [] (fun t => [t.x 14]) =
    some [0x02001004] := by decide

/-- V263. -/
theorem test_tBlSuffix : thumb .a7 0xF802 [reg 14 0x02000201] (fun t => [t.x 14, t.x 15]) =
    some [0x02000003, 0x02000208] := by decide

/-- R214, by hand. -/
theorem test_andImm : arm .a7 0xE21100F0 [reg 1 0x1FF] (fun t => [t.x 0, nzcv t]) =
    some [0xF0, 0] := by decide

/-- R214, by hand. -/
theorem test_andShiftReg : arm .a7 0xE0010312 [reg 1 0xFF, reg 2 1, reg 3 4] (fun t => [t.x 0]) =
    some [0x10] := by decide

/-- R215, by hand. -/
theorem test_eorImm : arm .a7 0xE22100FF [reg 1 0x0F] (fun t => [t.x 0]) =
    some [0xF0] := by decide

/-- R215, by hand. -/
theorem test_eorShiftReg : arm .a7 0xE0210312 [reg 1 0x11, reg 2 1, reg 3 4] (fun t => [t.x 0]) =
    some [0x01] := by decide

/-- R216, by hand. -/
theorem test_subShiftImm : arm .a7 0xE0510102 [reg 1 8, reg 2 2] (fun t => [t.x 0, nzcv t]) =
    some [0, 0b0110] := by decide

/-- R216, by hand. -/
theorem test_subShiftReg : arm .a7 0xE0510312 [reg 1 5, reg 2 1, reg 3 1] (fun t => [t.x 0, nzcv t]) =
    some [3, 0b0010] := by decide

/-- R217, by hand. -/
theorem test_rsbShiftImm : arm .a7 0xE0710002 [reg 1 1, reg 2 3] (fun t => [t.x 0, nzcv t]) =
    some [2, 0b0010] := by decide

/-- R217, by hand. -/
theorem test_rsbShiftReg : arm .a7 0xE0710312 [reg 1 1, reg 2 1, reg 3 0] (fun t => [t.x 0, nzcv t]) =
    some [0, 0b0110] := by decide

/-- R219, by hand. -/
theorem test_adcImm : arm .a7 0xE2A10001 [status 0x200000DF, reg 1 1] (fun t => [t.x 0]) =
    some [3] := by decide

/-- R219, by hand. -/
theorem test_adcShiftReg : arm .a7 0xE0A10312 [status 0x200000DF, reg 1 1, reg 2 1, reg 3 1] (fun t => [t.x 0]) =
    some [4] := by decide

/-- R220, by hand. -/
theorem test_sbcImm : arm .a7 0xE2C10001 [reg 1 5] (fun t => [t.x 0]) =
    some [3] := by decide

/-- R220, by hand. -/
theorem test_sbcShiftReg : arm .a7 0xE0C10312 [reg 1 5, reg 2 1, reg 3 0] (fun t => [t.x 0]) =
    some [3] := by decide

/-- R221, by hand. -/
theorem test_rscImm : arm .a7 0xE2E10005 [reg 1 1] (fun t => [t.x 0]) =
    some [3] := by decide

/-- R221, by hand. -/
theorem test_rscShiftReg : arm .a7 0xE0E10312 [status 0x200000DF, reg 1 1, reg 2 1, reg 3 2] (fun t => [t.x 0]) =
    some [3] := by decide

/-- R222, by hand. -/
theorem test_tstShiftReg : arm .a7 0xE1110312 [reg 1 1, reg 2 1, reg 3 4] (fun t => [nzcv t]) =
    some [0b0100] := by decide

/-- R223, by hand. -/
theorem test_teqImm : arm .a7 0xE3310005 [reg 1 5] (fun t => [nzcv t]) =
    some [0b0100] := by decide

/-- R223, by hand. -/
theorem test_teqShiftReg : arm .a7 0xE1310312 [reg 1 0x10, reg 2 1, reg 3 4] (fun t => [nzcv t]) =
    some [0b0100] := by decide

/-- R224, by hand. -/
theorem test_cmpImm : arm .a7 0xE3510005 [reg 1 3] (fun t => [nzcv t]) =
    some [0b1000] := by decide

/-- R224, by hand. -/
theorem test_cmpShiftReg : arm .a7 0xE1510312 [reg 1 4, reg 2 1, reg 3 2] (fun t => [nzcv t]) =
    some [0b0110] := by decide

/-- R225, by hand. -/
theorem test_cmnImm : arm .a7 0xE3710001 [reg 1 0xFFFFFFFF] (fun t => [nzcv t]) =
    some [0b0110] := by decide

/-- R225, by hand. -/
theorem test_cmnShiftReg : arm .a7 0xE1710312 [reg 1 0xFFFFFFFC, reg 2 1, reg 3 2] (fun t => [nzcv t]) =
    some [0b0110] := by decide

/-- R226, by hand. -/
theorem test_orrImm : arm .a7 0xE3810001 [reg 1 2] (fun t => [t.x 0]) =
    some [3] := by decide

/-- R226, by hand. -/
theorem test_orrShiftReg : arm .a7 0xE1810312 [reg 1 1, reg 2 1, reg 3 4] (fun t => [t.x 0]) =
    some [0x11] := by decide

/-- R228, by hand. -/
theorem test_bicShiftImm : arm .a7 0xE1C10002 [reg 1 0xFF, reg 2 0x0F] (fun t => [t.x 0]) =
    some [0xF0] := by decide

/-- R228, by hand. -/
theorem test_bicShiftReg : arm .a7 0xE1C10312 [reg 1 0x1F, reg 2 1, reg 3 4] (fun t => [t.x 0]) =
    some [0x0F] := by decide

/-- R229, by hand. -/
theorem test_mvnShiftImm : arm .a7 0xE1E00002 [reg 2 0] (fun t => [t.x 0]) =
    some [0xFFFFFFFF] := by decide

/-- R229, by hand. -/
theorem test_mvnShiftReg : arm .a7 0xE1E00312 [reg 2 1, reg 3 4] (fun t => [t.x 0]) =
    some [0xFFFFFFEF] := by decide

/-- R263, by hand. -/
theorem test_strhReg : arm .a7 0xE18100B2 [reg 0 0x1234, reg 1 0x02000100, reg 2 0] (fun t => [wordAt 0x02000100 t]) =
    some [0xAABB1234] := by decide

/-- R265, by hand. -/
theorem test_ldrsbReg : arm .a7 0xE19100D2 [reg 1 0x02000100, reg 2 1] (fun t => [t.x 0]) =
    some [0xFFFFFFCC] := by decide

/-- R264, by hand. -/
theorem test_ldrshReg : arm .a7 0xE19100F2 [reg 1 0x02000100, reg 2 2] (fun t => [t.x 0]) =
    some [0xFFFFAABB] := by decide

/-- R266, by hand. -/
theorem test_ldrdReg : arm .a9 0xE18120D4 [reg 1 0x02000100, reg 4 0] (fun t => [t.x 2, t.x 3]) =
    some [0xAABBCCDD, 0x11223344] := by decide

/-- R266, by hand. -/
theorem test_strdReg : arm .a9 0xE18120F4 [reg 1 0x02000100, reg 2 1, reg 3 2, reg 4 8] (fun t => [wordAt 0x02000108 t, wordAt 0x0200010C t]) =
    some [1, 2] := by decide

/-- R329, by hand. -/
theorem test_msrSpsrImm : arm .a7 0xE368F20F [status 0xD3, saved .svc 0x13] (fun t => [t.cur.spsr.svc]) =
    some [0xF0000013] := by decide

/-- R254, by hand. -/
theorem test_strReg : arm .a7 0xE7810002 [reg 0 7, reg 1 0x02000100, reg 2 4] (fun t => [wordAt 0x02000104 t]) =
    some [7] := by decide

/-- R256, by hand. -/
theorem test_strbReg : arm .a7 0xE7C10002 [reg 0 0x17F, reg 1 0x02000100, reg 2 0] (fun t => [wordAt 0x02000100 t]) =
    some [0xAABBCC7F] := by decide

/-- R255, by hand. -/
theorem test_ldrbReg : arm .a7 0xE7D10002 [reg 1 0x02000100, reg 2 3] (fun t => [t.x 0]) =
    some [0xAA] := by decide

/-- R257, by hand. -/
theorem test_strtImm : arm .a7 0xE4A10004 [reg 0 5, reg 1 0x02000100] (fun t => [wordAt 0x02000100 t, t.x 1]) =
    some [5, 0x02000104] := by decide

/-- R257, by hand. -/
theorem test_strtReg : arm .a7 0xE6A10002 [reg 0 5, reg 1 0x02000100, reg 2 8] (fun t => [wordAt 0x02000100 t, t.x 1]) =
    some [5, 0x02000108] := by decide

/-- R257, by hand. -/
theorem test_ldrtReg : arm .a7 0xE6B10002 [reg 1 0x02000100, reg 2 4] (fun t => [t.x 0, t.x 1]) =
    some [0xAABBCCDD, 0x02000104] := by decide

/-- R257, by hand. -/
theorem test_strbtImm : arm .a7 0xE4E10001 [reg 0 0x55, reg 1 0x02000100] (fun t => [wordAt 0x02000100 t, t.x 1]) =
    some [0xAABBCC55, 0x02000101] := by decide

/-- R257, by hand. -/
theorem test_strbtReg : arm .a7 0xE6E10002 [reg 0 0x55, reg 1 0x02000100, reg 2 1] (fun t => [wordAt 0x02000100 t, t.x 1]) =
    some [0xAABBCC55, 0x02000101] := by decide

/-- R257, by hand. -/
theorem test_ldrbtImm : arm .a7 0xE4F10001 [reg 1 0x02000100] (fun t => [t.x 0, t.x 1]) =
    some [0xDD, 0x02000101] := by decide

/-- R257, by hand. -/
theorem test_ldrbtReg : arm .a7 0xE6F10002 [reg 1 0x02000100, reg 2 2] (fun t => [t.x 0, t.x 1]) =
    some [0xDD, 0x02000102] := by decide

/-- R390, by hand. -/
theorem test_unkImm : arm .a7 0xE3000000 [] (fun t => [(t.cur.unknownLog.headD (0, 0)).1, (t.cur.unknownLog.headD (0, 0)).2]) =
    some [0x02000000, 0xE3000000] := by decide

/-- R390, by hand. -/
theorem test_unk1001 : arm .a9 0xE0400090 [] (fun t => [(t.cur.unknownLog.headD (0, 0)).1, (t.cur.unknownLog.headD (0, 0)).2]) =
    some [0x02000000, 0xE0400090] := by decide

/-- R482, by hand. -/
theorem test_tBlxSuffix : thumb .a9 0xE800 [reg 14 0x02000100] (fun t => [t.x 15, flag 5 t, t.x 14]) =
    some [0x02000108, 0, 0x02000003] := by decide

/-- R390, by hand. -/
theorem test_tUnk11101 : thumb .a7 0xE800 [] (fun t => [(t.cur.unknownLog.headD (0, 0)).1, (t.cur.unknownLog.headD (0, 0)).2]) =
    some [0x02000000, 0xE800] := by decide

/-- R470, by hand. -/
theorem test_tBcond_taken : thumb .a7 0xD002 [status 0x400000FF] (fun t => [t.x 15]) =
    some [0x0200000C] := by decide

/-- R386, by hand. -/
theorem test_mcr_r386 : arm .a9 0xEE090F11 [reg 0 0x0300000A] (fun t => [t.ctl.cp15Dtcm, t.ctl.cp15Control]) =
    some [0x0300000A, 0x2078] := by decide

/-- R387, by hand. -/
theorem test_mcr_r387 : arm .a9 0xEE070F90 [] (fun t => [if t.cur.halted then (1 : Word) else 0]) =
    some [1] := by decide

/-- R388, by hand. -/
theorem test_mrc_unlisted : arm .a9 0xEE100F10 [] (fun t => [BitVec.ofNat 32 t.cur.unknownLog.length, t.x 1]) =
    some [0, 0] := by decide

/-! Ill-formed terms are refused, one for each check of WellFormed.lean. -/

theorem test_illformed_a9_only :
    wellFormed .a7 (.blxReg { cond := 14, sbo := 0xFFF, rm := 1 }) = false ∧
    wellFormed .a7 (.clz { cond := 14, sbo := 15, rd := 0, sbo2 := 15, rm := 1 }) = false ∧
    wellFormed .a7 (.qadd { cond := 14, rn := 2, rd := 0, sbz := 0, rm := 1 }) = false ∧
    wellFormed .a7 (.qsub { cond := 14, rn := 2, rd := 0, sbz := 0, rm := 1 }) = false ∧
    wellFormed .a7 (.qdadd { cond := 14, rn := 2, rd := 0, sbz := 0, rm := 1 }) = false ∧
    wellFormed .a7 (.qdsub { cond := 14, rn := 2, rd := 0, sbz := 0, rm := 1 }) = false ∧
    wellFormed .a7 (.smlaXy { cond := 14, rd := 0, rn := 3, rs := 2, y := 0, x := 0, rm := 1 }) = false ∧
    wellFormed .a7 (.smulXy { cond := 14, rd := 0, rn := 0, rs := 2, y := 0, x := 0, rm := 1 }) = false ∧
    wellFormed .a7 (.smlawY { cond := 14, rd := 0, rn := 3, rs := 2, y := 0, rm := 1 }) = false ∧
    wellFormed .a7 (.smulwY { cond := 14, rd := 0, rn := 0, rs := 2, y := 0, rm := 1 }) = false ∧
    wellFormed .a7 (.smlalXy { cond := 14, rdHi := 1, rdLo := 0, rs := 2, y := 0, x := 0, rm := 1 }) = false := by decide

theorem test_illformed_a9_only_2 :
    wellFormed .a7 (.ldrdImm { cond := 14, p := 1, u := 1, w := 0, rn := 0, rd := 2, immHi := 0, immLo := 0 }) = false ∧
    wellFormed .a7 (.strdImm { cond := 14, p := 1, u := 1, w := 0, rn := 0, rd := 2, immHi := 0, immLo := 0 }) = false ∧
    wellFormed .a7 (.ldrdReg { cond := 14, p := 1, u := 1, w := 0, rn := 0, rd := 2, sbz := 0, rm := 1 }) = false ∧
    wellFormed .a7 (.strdReg { cond := 14, p := 1, u := 1, w := 0, rn := 0, rd := 2, sbz := 0, rm := 1 }) = false ∧
    wellFormed .a7 (.blxLabel { h := 0, imm24 := 0 }) = false ∧
    wellFormed .a7 (.mrc { cond := 14, crn := 1, rd := 0, op2 := 0, crm := 0 }) = false ∧
    wellFormed .a7 (.mcr { cond := 14, crn := 1, rd := 0, op2 := 0, crm := 0 }) = false ∧
    wellFormed .a7 (.tBlxReg { h2 := 0, rsLow := 0, sbz := 0 }) = false ∧
    wellFormed .a7 (.tBlxSuffix { offset := 0 }) = false := by decide

theorem test_illformed_a7_only :
    wellFormed .a9 (.unkDoubleA7 0xE1C020D0) = false ∧ wellFormed .a9 (.tBxH1 { h2 := 0, rsLow := 0, sbz := 0 }) = false ∧
    wellFormed .a9 (.tUnk11101 0xE800) = false := by decide

theorem test_illformed_pld : wellFormed .a7 (.pld { i := 0, u := 1, rn := 0, sbo := 15, offset := 0 }) = false := by decide

/-- P = 0 with W = 1 is the T form. -/
theorem test_illformed_t_form :
    (∀ o : SdtImmOps, o.p = 0 → o.w = 1 → wellFormed .a7 (.ldrImm o) = false ∧ wellFormed .a7 (.strImm o) = false ∧
      wellFormed .a7 (.ldrbImm o) = false ∧ wellFormed .a7 (.strbImm o) = false) ∧
    (∀ o : SdtRegOps, o.p = 0 → o.w = 1 → wellFormed .a7 (.ldrReg o) = false ∧ wellFormed .a7 (.strReg o) = false ∧
      wellFormed .a7 (.ldrbReg o) = false ∧ wellFormed .a7 (.strbReg o) = false) := by
  constructor <;> intro o hp hw <;> simp [wellFormed, notT, hp, hw]

/-- On core A9 the words with condition 1111 that are PLD, or BLX label, are not LDRB, B or BL. -/
theorem test_illformed_1111 :
    wellFormed .a9 (.ldrbImm { cond := 15, p := 1, u := 1, w := 0, rn := 0, rd := 15, offset := 0 }) = false ∧
    wellFormed .a9 (.ldrbReg { cond := 15, p := 1, u := 1, w := 0, rn := 0, rd := 15, amount := 0, type := .lsl, rm := 0 }) =
      false ∧
    wellFormed .a9 (.b { cond := 15, imm24 := 0 }) = false ∧ wellFormed .a9 (.bl { cond := 15, imm24 := 0 }) = false := by
  decide

/-- Coprocessor 15 with opcode1 = 0 is MRC or MCR on core A9. -/
theorem test_illformed_coproc :
    wellFormed .a9 (.coprocOther { cond := 14, op1 := 0, l := 1, crn := 1, rd := 0, cp := 15, op2 := 0, crm := 0 }) = false :=
  by decide

/-- A word of a known row is not an unknown instruction of another row. -/
theorem test_illformed_unknown :
    wellFormed .a7 (.unkDoubleA7 0xE3A00000) = false ∧ wellFormed .a7 (.unkMiscA 0xE10F0000) = false ∧
    wellFormed .a9 (.unkMiscA 0xE1000080) = false ∧ wellFormed .a7 (.unkMiscB 0xE12FFF1E) = false ∧
    wellFormed .a9 (.unkMiscB 0xE16F0F11) = false ∧ wellFormed .a7 (.unkImm 0xE3A00000) = false ∧
    wellFormed .a7 (.unk1001 0xE0000291) = false ∧ wellFormed .a7 (.unk1001 0xE1000090) = false ∧
    wellFormed .a7 (.unkMedia 0xE5900000) = false ∧ wellFormed .a9 (.unkMedia 0xF7D0F010) = false ∧
    wellFormed .a7 (.unkLdcStc 0xEA000000) = false ∧ wellFormed .a7 (.unkCdp 0xEE100F10) = false ∧
    wellFormed .a7 (.tUnk1011 0xB400) = false ∧ wellFormed .a7 (.tUnk1011 0xB000) = false ∧
    wellFormed .a7 (.tUnk1011 0xBE00) = false ∧ wellFormed .a7 (.tUnkDe 0xDF00) = false ∧
    wellFormed .a7 (.tUnk11101 0xF000) = false ∧ wellFormed .a7 (.tBcond { cond := 14, soffset := 0 }) = false ∧
    wellFormed .a7 (.tBcond { cond := 15, soffset := 0 }) = false ∧ wellFormed .a7 (.tBcond { cond := 13, soffset := 0 }) = true :=
  by decide

/-! One step. -/

/-- What a step leaves in R0, R15 and the timestamp of core A7. -/
def stepped (s : State) : Option (Word × Word × Dword) :=
  match step s with
  | .next t => some (t.a7.reg 0, t.a7.reg 15, t.a7.timestamp)
  | _ => none

/-- The step after placing a word runs it: `MOV R0, #1`; and Thumb `MOV R0, #1`. -/
theorem test_step_runs_the_word :
    stepped (State.reset.withFetchWord 32 0xE3A00001) = some (1, 0x0200000C, 1) ∧
    stepped (State.reset.withFetchWord 16 0x2001) = some (1, 0x02000006, 1) := by decide

/-- From bytes: the word of `MOV R0, #1`, and the end of the bytes. -/
theorem test_decode_bytes :
    decodeBytes .a7 false [0x01, 0x00, 0xA0, 0xE3, 0xAA] =
      .ok (.movImm { cond := 14, s := 0, rn := 0, rd := 0 } { rotate := 0, imm8 := 1 }, [0xAA]) ∧
    decodeBytes .a7 false [0x01, 0x00, 0xA0] = .error .truncated := by decide

/-! Scripts and the video mapping. -/

/-- What a script leaves in fields 1, 2, the queue and the number of the next handle. -/
def scripted (acts : Script) (s : State) : Option (Dword × Dword × List (Dword × Nat) × Nat) :=
  match runScript acts s with
  | .next t => some (t.field 1, t.field 2, t.queue, t.nextId)
  | _ => none

/-- R542, R544: times and delays are 64 bits wide. -/
theorem test_script_times :
    scripted (.act (.currentTime (.const 1)) (.act (.addEvent (.const 0x100000000) (.const 0)) .done))
      { State.reset with currentTime := 0x200000005, nextId := 1 } = some (0x200000005, 0, [(0x300000005, 0)], 1) := by decide

/-- R541: a callback registers a further event and gets its handle, which it then adds. -/
theorem test_script_registers :
    scripted (.registerEvent "next" .done (.const 1) (.act (.addEvent (.const 7) (.field 1)) .done))
      { State.reset with nextId := 4 } = some (4, 0, [(7, 4)], 5) := by decide

/-- R102: two choices one after the other, arithmetic and a loop that sums 3, 2, 1. -/
theorem test_script_computes :
    scripted (.ite (.const 0) (.act (.setField (.const 1) (.const 9)) .done) .done
      (.ite (.bin .lt (.const 1) (.const 2)) (.act (.setField (.const 1) (.const 3)) .done) .done
        (.loop (.const 10) (.field 1)
          (.act (.setField (.const 2) (.bin .add (.field 2) (.field 1)))
            (.act (.setField (.const 1) (.bin .sub (.field 1) (.const 1))) .done)) .done)))
      State.reset = some (0, 6, [], 0) := by decide

/-- R85: a mapping of three bytes for reads of core A9 alone. -/
theorem test_video_window :
    (let ctl : RegionControl :=
       { RegionControl.reset with
         video := [{ core := .a9, read := true, write := false, low := 0x06000001, size := 3, offset := 0x10 }] }
     resolve .default ctl .a9 0x06000003 .read = .buffer .vram 0x12 ∧ resolve .default ctl .a9 0x06000004 .read = .unmapped ∧
     resolve .default ctl .a9 0x06000003 .write = .unmapped ∧ resolve .default ctl .a7 0x06000003 .read = .unmapped) := by decide

/-! Witnesses: for each statement with hypotheses, states and operands that meet them all, each clause at a boundary of its
range where it has one. -/

theorem witness_DecodeEncode :
    wellFormed .a9 (.ldrdImm { cond := 15, p := 1, u := 1, w := 0, rn := 15, rd := 15, immHi := 15, immLo := 15 }) = true ∧
    wellFormed .a7 (.tBcond { cond := 13, soffset := 0xFF }) = true := by decide

/-- The invariant holds of a state with a word placed, and that state steps. -/
theorem witness_StepKeepsInvariant :
    (State.reset.withFetchWord 32 0xE3A00001).Inv ∧ ∃ t, step (State.reset.withFetchWord 32 0xE3A00001) = .next t := by
  refine ⟨⟨⟨?_, ?_, ?_, ?_⟩, ⟨?_, ?_, ?_, ?_⟩, by decide, by decide, ?_, ?_⟩, _, rfl⟩
  · show (bankOf (State.reset.withFetchWord 32 0xE3A00001).a7.mode).isSome = true; decide
  · show (State.reset.withFetchWord 32 0xE3A00001).a7.irqLatch = _; decide
  · show (State.reset.withFetchWord 32 0xE3A00001).a7.pc &&& _ = 0; decide
  · show (State.reset.withFetchWord 32 0xE3A00001).a7.t = true → _; decide
  · show (bankOf (State.reset.withFetchWord 32 0xE3A00001).a9.mode).isSome = true; decide
  · show (State.reset.withFetchWord 32 0xE3A00001).a9.irqLatch = _; decide
  · show (State.reset.withFetchWord 32 0xE3A00001).a9.pc &&& _ = 0; decide
  · show (State.reset.withFetchWord 32 0xE3A00001).a9.t = true → _; decide
  · exact List.Pairwise.nil
  · exact ⟨List.Pairwise.nil, fun _ h => absurd h List.not_mem_nil⟩

theorem witness_ConstructedState :
    (List.replicate 0x4000 (0x55 : Byte)).length = Parameters.default.biosSize.get .a7 ∧
    (List.replicate 0x1000 (0x55 : Byte)).length = Parameters.default.biosSize.get .a9 :=
  ⟨List.length_replicate, List.length_replicate⟩

theorem witness_DirectBoot (c : CoreId) : (State.reset.core c) = (State.reset.core c).resetCore ∧
    Fetches false 0x02000002 { State.reset with running := c } 0 0 := by
  cases c <;> exact ⟨by decide, by decide, by decide⟩

/-- ARM and Thumb. -/
theorem witness_StepRunsDecodedInstruction :
    (let s := State.reset.withFetchWord 32 0xE3A00001
     s.fault = none ∧ s.owner = .run .a7 (BitVec.allOnes 64) :: [] ∧ (s.core .a7).booted = true ∧
     (s.core .a7).timestamp.toNat < (BitVec.allOnes 64).toNat ∧ (s.core .a7).halted = false ∧
     ((s.core .a7).irqLatch && !(s.core .a7).iBit) = false ∧
     plainRead .a7 ((s.core .a7).reg 15) (fetchWidth (s.core .a7).t) { s with running := .a7 } = some 0) ∧
    (let s := State.reset.withFetchWord 16 0x4780
     s.fault = none ∧ s.owner = .run .a9 (BitVec.allOnes 64) :: [] ∧ (s.core .a9).booted = true ∧
     (s.core .a9).timestamp.toNat < (BitVec.allOnes 64).toNat ∧ (s.core .a9).halted = false ∧
     ((s.core .a9).irqLatch && !(s.core .a9).iBit) = false ∧ (s.core .a9).t = true ∧
     plainRead .a9 ((s.core .a9).reg 15) (fetchWidth (s.core .a9).t) { s with running := .a9 } = some 0) := by decide

/-- A call of `run` with a core booted, halted and at a time. -/
def running (c : CoreId) (booted halted irq : Bool) (time target : Dword) : State :=
  let s := { State.reset with owner := [.run c target] }
  s.setCore c { s.core c with booted := booted, halted := halted, timestamp := time, irqLatch := irq, cpsr := 0x1F }

/-- Not booted; booted at the target; booted, halted, one below the target. -/
theorem witness_RunLoopEnds :
    ((running .a7 false false false 0 5).fault = none ∧ (running .a7 false false false 0 5).owner = [.run .a7 5] ∧
      ((running .a7 false false false 0 5).core .a7).booted = false) ∧
    (((running .a7 true false false 5 5).core .a7).booted = true ∧
      (5 : Dword).toNat ≤ ((running .a7 true false false 5 5).core .a7).timestamp.toNat) ∧
    (((running .a9 true true false 4 5).core .a9).booted = true ∧
      ((running .a9 true true false 4 5).core .a9).timestamp.toNat < (5 : Dword).toNat ∧
      ((running .a9 true true false 4 5).core .a9).halted = true) := by decide

/-- Latch set with I clear, latch clear, and an entry that succeeds. -/
theorem witness_IrqAtBoundary :
    (let k := (running .a7 true false true 4 5).core .a7
     k.booted = true ∧ k.timestamp.toNat < (5 : Dword).toNat ∧ k.halted = false ∧ k.irqLatch = true ∧ k.iBit = false) ∧
    (let k := (running .a7 true false false 4 5).core .a7
     ¬(k.irqLatch = true ∧ k.iBit = false)) ∧
    ∃ t, raiseIrq { running .a7 true false true 4 5 with running := .a7 } = .next t := ⟨by decide, by decide, _, rfl⟩

theorem witness_FailedCondition :
    armCond (.swi { cond := 0, comment := 0 }) = some 0 ∧ condPassed 0 (setup .a7 false []).cur = false ∧
    condPassed (({ cond := 15, soffset := 0 } : TCondOps).cond) (setup .a7 true []).cur = false ∧
    (setup .a7 false []).running = .a7 := by decide

theorem witness_HardFaultStops :
    ({ State.reset with fault := some (.invalidMode 0) } : State).fault = some (.invalidMode 0) := rfl

/-- A queue of one event at time 3, whose handle is registered. -/
def queued (now : Dword) : State :=
  { State.reset with owner := [.runEvents], currentTime := now, queue := [(3, 0)], nextId := 1,
                     events := [{ id := 0, name := "timer", callback := .act (.sendInterrupt .a7 3) .done }] }

/-- An empty queue; an event one later than now; an event due now. -/
theorem witness_SchedulerFires :
    (({ queued 0 with queue := [] } : State).fault = none ∧ ({ queued 0 with queue := [] } : State).owner = [.runEvents]) ∧
    ((queued 2).queue = [(3, 0)] ∧ (queued 2).currentTime.toNat < (3 : Dword).toNat) ∧
    ((3 : Dword).toNat ≤ (queued 3).currentTime.toNat ∧
      (∃ e ∈ (queued 3).events, e.id = 0) ∧ (queued 3).HandlesFresh ∧ ∃ u, step (queued 3) = .next u) :=
  ⟨by decide, by decide, by decide, ⟨_, List.mem_singleton.mpr rfl, rfl⟩,
    ⟨List.pairwise_singleton _ _, fun e h => by cases List.mem_singleton.mp h; decide⟩, _, rfl⟩

theorem witness_QueueOperations : (queued 0).QueueAscending := List.pairwise_singleton _ _

theorem witness_WriteThenRead :
    (setup .a9 false []).buf.wf ∧
    locate .a9 (alignDown 0x023FFFFF .w32) .write (setup .a9 false []) = .buffer .mainRam 0x3FFFFC ∧
    locate .a9 (alignDown 0x023FFFFF .w32) .read (setup .a9 false []) = .buffer .mainRam 0x3FFFFC := by decide

theorem witness_LittleEndian : Memory.wf ([(3, 7)] : List Host.Cell) := by decide

/-- Bounds inside one page, whose first and last bytes the rounded range holds; and the top of the space. -/
theorem witness_RebuildAgrees :
    (let page := State.reset.par.pageSize
     0x02000801 / page * page ≤ (0x02000000 : Word).toNat ∧
     (0x02000FFF : Word).toNat < (0x02000802 + page - 1) / page * page ∧ 0x02000802 ≤ 2 ^ 32 ∧
     (0xFFFFFFFF : Word).toNat < (2 ^ 32 + page - 1) / page * page) ∧ State.reset.par = .default := by decide

/-- Both TCMs enabled, DTCM of 16 KB at 0x03000000, ITCM of 32 KB. -/
def tcms : RegionControl := { RegionControl.reset with cp15Control := 0x00052078, cp15Dtcm := 0x0300000A, cp15Itcm := 0x0C }

/-- The last byte of the ITCM, the first and the last of the DTCM, the byte after each. -/
theorem witness_TcmPriority :
    (∀ d, itcmEnabled tcms d = true ∧ dtcmEnabled tcms d = true) ∧ (0x7FFF : Word).toNat < tcmWindow tcms.cp15Itcm ∧
    ¬((0x8000 : Word).toNat < tcmWindow tcms.cp15Itcm) ∧ dtcmBase tcms ≤ (0x03000000 : Word).toNat ∧
    (0x03003FFF : Word).toNat < dtcmBase tcms + tcmWindow tcms.cp15Dtcm ∧
    ¬((0x03004000 : Word).toNat < dtcmBase tcms + tcmWindow tcms.cp15Dtcm) :=
  ⟨fun d => by cases d <;> decide, by decide, by decide, by decide, by decide, by decide⟩

/-- After reset every table agrees with `Resolve`. -/
theorem tablesFresh_reset (c : CoreId) : TablesFresh c State.reset := tablesFresh_whole c _ (by cases c <;> rfl)

/-- The first and the last word of main RAM's view. -/
theorem witness_SharedMainRam :
    State.reset.buf.wf ∧ (0x02000000 : Word).toNat / 2 ^ 24 = 2 ∧ (0x02FFFFFF : Word).toNat / 2 ^ 24 = 2 ∧
    State.reset.par.regions = Parameters.default.regions ∧ (∀ e, TablesFresh e State.reset) ∧ State.reset.ctl.controlBit 16 = false ∧ State.reset.ctl.controlBit 18 = false :=
  ⟨by decide, by decide, by decide, rfl, tablesFresh_reset, by decide, by decide⟩

/-- Unmapped in both directions; the register window at an address without a registration. -/
theorem witness_AccessFaults :
    locate .a7 (alignDown 0x01000001 .w16) .read State.reset = .unmapped ∧
    locate .a9 (alignDown 0x0B000000 .w32) .write State.reset = .unmapped ∧
    (∀ e ∈ (State.reset.core .a7).mmio, ¬(e.addr = 0x04000000 ∧ e.width = .w32)) ∧
    (∀ d, locate .a7 0x04000000 d State.reset = .mmio) :=
  ⟨by decide, by decide, by decide, fun d => by cases d <;> decide⟩

/-- The two ends of each region, on the core it belongs to; core A9 with its TCMs disabled. -/
theorem witness_ReadOnlyRegions :
    (∀ c, TablesFresh c State.reset) ∧ State.reset.par.regions = Parameters.default.regions ∧
    State.reset.ctl.controlBit 16 = false ∧ State.reset.ctl.controlBit 18 = false ∧
    (0x00FFFFFF : Word).toNat / 2 ^ 24 = 0x00 ∧ (0xFF000000 : Word).toNat / 2 ^ 24 = 0xFF ∧
    (0x3FFF : Word).toNat < State.reset.par.biosSize.get .a7 ∧ 0xFFFF0000 ≤ (0xFFFF0000 : Word).toNat ∧
    (0xFFFF0FFF : Word).toNat < 0xFFFF0000 + State.reset.par.biosSize.get .a9 ∧
    0x08 ≤ (0x08000000 : Word).toNat / 2 ^ 24 ∧ (0x0AFFFFFF : Word).toNat / 2 ^ 24 ≤ 0x0A :=
  ⟨tablesFresh_reset, rfl, by decide, by decide, by decide, by decide, by decide, by decide, by decide, by decide, by decide⟩

/-- A direct pair and a stub, at 0x04000100. -/
def direct : Registration := { addr := 0x04000100, width := .w16, read := .direct 1, write := .direct 1 0x00FF }
def stub : Registration := { addr := 0x04000100, width := .w16, read := .stub 7, write := .stub }

theorem witness_MmioHandlers :
    alignDown 0x04000101 direct.width = direct.addr ∧
    (∀ d, locate .a7 direct.addr d (registerMmio .a7 direct State.reset) = .mmio) ∧
    direct.read = .direct 1 ∧ direct.write = .direct 1 0x00FF ∧ alignDown 0x04000100 stub.width = stub.addr ∧
    (∀ d, locate .a9 stub.addr d (registerMmio .a9 stub State.reset) = .mmio) ∧ stub.read = .stub 7 ∧ stub.write = .stub ∧
    ((0x04000102 : Word) ≠ direct.addr) ∧ (Width.w32 ≠ direct.width) :=
  ⟨by decide, fun d => by cases d <;> decide, rfl, rfl, by decide, fun d => by cases d <;> decide, rfl, rfl, by decide,
    by decide⟩

theorem witness_InterruptRegisters (c : CoreId) : (State.reset.core c).mmio = blockRegistrations .default c ∧
    ∀ (a : Word) d, a.toNat / 2 ^ 24 = 4 → locate c a d State.reset = .mmio := by
  refine ⟨by cases c <;> rfl, fun a d h => ?_⟩
  have e1 : itcmEnabled State.reset.ctl d = false := by cases d <;> decide
  have e2 : dtcmEnabled State.reset.ctl d = false := by cases d <;> decide
  have lo : 0x04000000 ≤ a.toNat := by omega
  have hi : a.toNat < 0x05000000 := by omega
  have bottom : ∀ n : Nat, n ≤ 0x04000000 → ¬(a.toNat < n) := by omega
  have find : (findRegion (State.reset.par.regions.get c) a.toNat).map Region.kind = some .mmio := by
    cases c <;>
      simp [findRegion, State.reset, State.initial, Parameters.default, PerCore.get, regionsA7, regionsA9, lo, hi, bottom]
  rw [tablesFresh_reset c a d]
  obtain ⟨r, hr, hk⟩ := Option.map_eq_some_iff.mp find
  have region : regionAt State.reset.par State.reset.ctl c a.toNat d = .mmio := by simp only [regionAt, hr, hk, RegionKind.target]
  cases c
  · exact region
  · simp only [resolve, resolveAt, e1, e2, region, Bool.false_eq_true, false_and, if_false]

/-- The wake-up condition met, by core A7 alone with IME clear, and not met. -/
theorem witness_SendInterrupt :
    (let k : CoreState := { CoreState.cleared with ie := 0x80000000 }
     k.ie.getLsbD (31 : BitVec 5).toNat = true ∧ k.ime = false) ∧ CoreState.cleared.ie.getLsbD (31 : BitVec 5).toNat = false := by
  decide

/-- Every mode, with a User-mode and an FIQ-mode state to switch from. -/
theorem witness_BankSwap :
    (bankOf 0x10 = some .usr ∧ bankOf 0x11 = some .fiq ∧ bankOf 0x12 = some .irq ∧ bankOf 0x13 = some .svc ∧
      bankOf 0x17 = some .abt ∧ bankOf 0x1B = some .und ∧ bankOf 0x1F = some .usr) ∧
    (setup .a7 false []).cur.bank = .usr ∧ (setup .a7 false [status 0xD1]).cur.bank = .fiq := by decide

/-- From User to FIQ, at R8, R12, R13 and R14. -/
theorem witness_BankIsolation :
    bankOf ((0x1F : Word).extractLsb' 0 5) = some .usr ∧ bankOf ((0x11 : Word).extractLsb' 0 5) = some .fiq ∧
    (setup .a7 false []).cur.bank = .usr ∧ (∀ i ∈ [(8 : BitVec 4), 12], 8 ≤ i ∧ i ≤ 12) := by decide

theorem witness_InvalidMode :
    (∀ m ∈ [(0x10 : BitVec 5), 0x11, 0x12, 0x13, 0x17, 0x1B, 0x1F], (0xF4 : Word).extractLsb' 0 5 ≠ m) ∧
    (0xFF : Word).extractLsb' 0 5 = (0x1F : BitVec 5) := by decide

/-- System mode and User mode; the exception returns, an LDM whose loads succeed, and the empty list of core A7. -/
theorem witness_SpsrFaults :
    (setup .a7 false []).cur.mode = 0x1F ∧ (setup .a7 false [status 0xD0]).cur.mode = 0x10 ∧
    condPassed 14 (setup .a7 false []).cur = true ∧
    (∃ r f, dpValue (.movShiftImm { cond := 14, s := 1, rn := 0, rd := 15 } { amount := 0, type := .lsl, rm := 14 })
      (setup .a7 false []) = some ({ cond := 14, s := 1, rn := 0, rd := 15 }, r, f)) ∧
    (∃ vs u, loadList (listRegs 0x8001) (blockStart 0 1 ((setup .a7 false []).x 12) 2) (setup .a7 false []) = .next (vs, u)) ∧
    (setup .a7 false []).running = .a7 ∧
    ∃ d u, memRead .a7 (blockStart 0 1 ((setup .a7 false []).x 12) 16) .w32 (setup .a7 false []) = .next (d, u) :=
  ⟨by decide, by decide, by decide, ⟨_, _, rfl⟩, ⟨_, _, rfl⟩, by decide, _, _, rfl⟩

/-- The four vectors' words, on both cores with the exception base after reset. -/
theorem witness_EnterException (c : CoreId) :
    let base : Word := match c with | .a7 => 0 | .a9 => 0xFFFF0000
    (if (setup c false []).running = .a9 ∧ (setup c false []).ctl.cp15Control.getLsbD 13 = true then (0xFFFF0000 : Word) else 0) =
      base ∧
    Fetches false (base + 0x18) (setup c false []) 0 0 ∧ Fetches false (base + 0x08) (setup c false []) 0 0 := by
  cases c <;> exact ⟨by decide, ⟨by decide, by decide⟩, ⟨by decide, by decide⟩⟩

theorem witness_SoftwareInterrupt :
    condPassed (({ cond := 14, comment := 0 } : SwiOps).cond) (setup .a7 false []).cur = true ∧
    Fetches false 0x08 (setup .a7 false []) 0 0 ∧ Fetches false 0xFFFF0008 (setup .a9 true []) 0 0 :=
  ⟨by decide, ⟨by decide, by decide⟩, ⟨by decide, by decide⟩⟩

/-- Supervisor mode with a saved User mode, ARM and Thumb. -/
theorem witness_ExceptionReturn :
    (∃ r f, dpValue (.movShiftImm { cond := 14, s := 1, rn := 0, rd := 15 } { amount := 0, type := .lsl, rm := 12 })
        (setup .a7 false [status 0xD3, saved .svc 0x10]) = some ({ cond := 14, s := 1, rn := 0, rd := 15 }, r, f) ∧
      r = 0x02000000) ∧
    (setup .a7 false [status 0xD3, saved .svc 0x10]).cur.spsr.get (setup .a7 false [status 0xD3, saved .svc 0x10]).cur.bank =
      some 0x10 ∧ bankOf ((0x10 : Word).extractLsb' 0 5) = some .usr ∧
    Fetches ((0x10 : Word).getLsbD 5) 0x02000000 (setup .a7 false [status 0xD3, saved .svc 0x10]) 0 0 ∧
    Fetches ((0x30 : Word).getLsbD 5) 0x02000000 (setup .a7 false [status 0xD3, saved .svc 0x30]) 0 0 :=
  ⟨⟨_, _, rfl, by decide⟩, by decide, by decide, ⟨by decide, by decide⟩, ⟨by decide, by decide⟩⟩

theorem witness_OnlyTheseChangeMode :
    mayChangeMode (.bx { cond := 14, sbo := 0xFFF, rm := 12 }) = false ∧
    (∃ t, exec (.bx { cond := 14, sbo := 0xFFF, rm := 12 }) (setup .a7 false []) = .next t) ∧
    mayChangeMode (.swi { cond := 14, comment := 0 }) = true ∧
    ∃ t, exec (.swi { cond := 14, comment := 0 }) (setup .a7 false []) = .next t := ⟨by decide, ⟨_, rfl⟩, by decide, _, rfl⟩

/-- Both operand forms, every field selected; a valid and an invalid new mode; User mode. -/
theorem witness_MsrCpsr :
    condPassed 14 (setup .a7 false [reg 0 0x12]).cur = true ∧ (setup .a7 false [reg 0 0x12]).x 0 = 0x12 ∧
    bankOf ((0x12 : Word).extractLsb' 0 5) = some .irq ∧
    ((0xF4 : BitVec 8).setWidth 32).rotateRight (2 * (0 : BitVec 4).toNat) = (0xF4 : Word) ∧
    bankOf ((0xF4 : Word).extractLsb' 0 5) = none ∧ (setup .a7 false [status 0xD0]).cur.mode = 0x10 := by decide

theorem witness_PsrTransfer :
    condPassed 14 (setup .a7 false [status 0xD3, saved .svc 0x10]).cur = true ∧
    (setup .a7 false [status 0xD3, saved .svc 0x10]).cur.spsr.get (setup .a7 false [status 0xD3, saved .svc 0x10]).cur.bank =
      some 0x10 ∧ (setup .a7 false []).cur.mode = 0x1F ∧ (setup .a7 false [status 0xD0]).cur.mode = 0x10 := by decide

/-- The three operand forms; below R15, and R15 with its jump. -/
theorem witness_LogicalResult :
    (∃ f, logicalOp (.andImm { cond := 14, s := 1, rn := 1, rd := 14 } { rotate := 15, imm8 := 0xFF }) =
      some ({ cond := 14, s := 1, rn := 1, rd := 14 }, .imm { rotate := 15, imm8 := 0xFF }, f)) ∧
    (∃ f, logicalOp (.movShiftReg { cond := 14, s := 0, rn := 0, rd := 15 } { rs := 15, type := .ror, rm := 15 }) =
      some ({ cond := 14, s := 0, rn := 0, rd := 15 }, .shiftReg { rs := 15, type := .ror, rm := 15 }, f)) ∧
    condPassed 14 (setup .a7 false []).cur = true ∧ Fetches (setup .a7 false []).cur.t 0x02000000 (setup .a7 false []) 0 0 :=
  ⟨⟨_, rfl⟩, ⟨_, rfl⟩, by decide, by decide, by decide⟩

theorem witness_ArithmeticResult :
    (∃ f, arithmeticOp (.rscShiftReg { cond := 14, s := 1, rn := 15, rd := 14 } { rs := 15, type := .asr, rm := 15 }) =
      some ({ cond := 14, s := 1, rn := 15, rd := 14 }, .shiftReg { rs := 15, type := .asr, rm := 15 }, f)) ∧
    (∃ f, arithmeticOp (.addImm { cond := 14, s := 0, rn := 15, rd := 15 } { rotate := 0, imm8 := 0 }) =
      some ({ cond := 14, s := 0, rn := 15, rd := 15 }, .imm { rotate := 0, imm8 := 0 }, f)) ∧
    condPassed 14 (setup .a7 false []).cur = true ∧ Fetches (setup .a7 false []).cur.t 0x02000008 (setup .a7 false []) 0 0 :=
  ⟨⟨_, rfl⟩, ⟨_, rfl⟩, by decide, by decide, by decide⟩

theorem witness_CompareResult :
    (∃ f, compareOp (.cmpImm { cond := 14, rn := 15, rd := 15 } { rotate := 0, imm8 := 0 }) =
      some ({ cond := 14, rn := 15, rd := 15 }, .imm { rotate := 0, imm8 := 0 }, f)) ∧
    condPassed 14 (setup .a7 false []).cur = true := ⟨⟨_, rfl⟩, by decide⟩

/-- Below R15, and R15. -/
theorem witness_MultiplyResult :
    (∃ r, multiplyResult (setup .a7 false []) (.mla { cond := 14, s := 1, rd := 14, rn := 3, rs := 2, rm := 1 }) = some r ∧
      r.rd ≠ 15 ∧ condPassed r.cond (setup .a7 false []).cur = true) ∧
    (∃ r, multiplyResult (setup .a7 false [reg 1 0x02000000, reg 2 1])
        (.mul { cond := 14, s := 0, rd := 15, rn := 0, rs := 2, rm := 1 }) = some r ∧ r.rd = 15 ∧ r.value = 0x02000000) ∧
    Fetches false 0x02000000 (setup .a7 false [reg 1 0x02000000, reg 2 1]) 0 0 :=
  ⟨⟨_, rfl, by decide, by decide⟩, ⟨_, rfl, by decide, by decide⟩, by decide, by decide⟩

/-- Neither half R15; the high one; the low one; both. -/
theorem witness_LongMultiplyResult :
    (∃ r, longOp (setup .a7 false []) (.umull { cond := 14, s := 1, rdHi := 1, rdLo := 0, rs := 2, rm := 3 }) = some r ∧
      r.rdHi ≠ 15 ∧ r.rdLo ≠ 15 ∧ condPassed r.cond (setup .a7 false []).cur = true) ∧
    (∃ r, longOp (setup .a7 false []) (.smull { cond := 14, s := 1, rdHi := 15, rdLo := 0, rs := 2, rm := 3 }) = some r ∧
      r.rdHi = 15 ∧ r.rdLo ≠ 15 ∧ r.value = 0) ∧
    (∃ r, longOp (setup .a7 false []) (.umlal { cond := 14, s := 1, rdHi := 0, rdLo := 15, rs := 2, rm := 3 }) = some r ∧
      r.rdHi ≠ 15 ∧ r.rdLo = 15 ∧ r.value = 0x02000008) ∧
    (∃ r, longOp (setup .a9 false []) (.smlalXy { cond := 14, rdHi := 15, rdLo := 15, rs := 2, y := 0, x := 0, rm := 3 }) =
      some r ∧ r.rdHi = 15 ∧ r.rdLo = 15 ∧ r.value = 0x0200000802000008) ∧
    Fetches false 0 (setup .a7 false []) 0 0 ∧ Fetches false 0x02000008 (setup .a9 false []) 0 0 :=
  ⟨⟨_, rfl, by decide, by decide, by decide⟩, ⟨_, rfl, by decide, by decide, by decide⟩,
    ⟨_, rfl, by decide, by decide, by decide⟩, ⟨_, rfl, by decide, by decide, by decide⟩, ⟨by decide, by decide⟩,
    by decide, by decide⟩

/-- Below R15, and R15. -/
theorem witness_DspResult :
    (setup .a9 false []).running = .a9 ∧
    (∃ r, dspOp (setup .a9 false []) (.qdadd { cond := 14, rn := 2, rd := 14, sbz := 0, rm := 1 }) = some r ∧ r.rd ≠ 15 ∧
      condPassed r.cond (setup .a9 false []).cur = true) ∧
    (∃ r, dspOp (setup .a9 false []) (.qadd { cond := 14, rn := 0, rd := 15, sbz := 0, rm := 12 }) = some r ∧ r.rd = 15 ∧
      r.value = 0x02000000) ∧ Fetches false 0x02000000 (setup .a9 false []) 0 0 :=
  ⟨by decide, ⟨_, rfl, by decide, by decide⟩, ⟨_, rfl, by decide, by decide⟩, by decide, by decide⟩

/-- Unknown on both cores; on core A7; for an odd `Rd` on core A9; in Thumb. -/
theorem witness_UnknownInstructions :
    isUnknown .a9 (.unkMedia 0xE7F000F0) = true ∧ armCond (.unkMedia 0xE7F000F0) = some 14 ∧
    isUnknown .a7 (.clz { cond := 14, sbo := 15, rd := 0, sbo2 := 15, rm := 1 }) = true ∧
    isUnknown .a9 (.ldrdImm { cond := 14, p := 1, u := 1, w := 0, rn := 0, rd := 15, immHi := 0, immLo := 0 }) = true ∧
    isUnknown .a7 (.tUnkDe 0xDE00) = true ∧ armCond (.tUnkDe 0xDE00) = none ∧
    condPassed 14 (setup .a9 false []).cur = true := by decide

/-- LDR with write-back over plain memory; LDRB to an unmapped address. -/
theorem witness_SingleLoad :
    (∃ v d u, loadView (setup .a7 false []).cur
        (.ldrImm { cond := 14, p := 0, u := 1, w := 0, rn := 12, rd := 14, offset := 4 }) = some v ∧
      condPassed v.cond (setup .a7 false []).cur = true ∧ v.rd ≠ 15 ∧ v.a.wb = true ∧ v.rn ≠ 15 ∧
      memRead .a7 v.a.addr v.width (setup .a7 false []) = .next (d, u) ∧
      plainRead .a7 v.a.addr v.width (setup .a7 false []) = some d) ∧
    (∃ v e, loadView (setup .a7 false [reg 1 0x01000000]).cur
        (.ldrbImm { cond := 14, p := 1, u := 1, w := 0, rn := 1, rd := 0, offset := 0 }) = some v ∧ v.rd ≠ 15 ∧ v.a.wb = false ∧
      memRead .a7 v.a.addr v.width (setup .a7 false [reg 1 0x01000000]) = .fault e) :=
  ⟨⟨_, _, _, rfl, by decide, by decide, by decide, by decide, rfl, rfl⟩, ⟨_, _, rfl, by decide, by decide, rfl⟩⟩

/-- A store into main RAM with write-back; into the boot ROM; to an unmapped address. -/
theorem witness_SingleStore :
    (∃ v u, storeView (setup .a7 false []) (.strImm { cond := 14, p := 0, u := 1, w := 0, rn := 12, rd := 15, offset := 4 }) =
        some v ∧ condPassed v.cond (setup .a7 false []).cur = true ∧ v.a.wb = true ∧ v.rn ≠ 15 ∧
      memWrite .a7 v.a.addr v.width v.value (setup .a7 false []) = .next u ∧ (setup .a7 false []).buf.wf ∧
      locate .a7 (alignDown v.a.addr v.width) .write (setup .a7 false []) = .buffer .mainRam 0) ∧
    (∃ v, storeView (setup .a7 false [reg 1 0])
        (.strhImm { cond := 14, p := 1, u := 1, w := 0, rn := 1, rd := 0, immHi := 0, immLo := 0 }) = some v ∧
      locate .a7 (alignDown v.a.addr v.width) .write (setup .a7 false [reg 1 0]) = .ignore) ∧
    (∃ v e, storeView (setup .a7 true [reg 1 0x01000000]) (.tStrbImm { imm5 := 0, rb := 1, rd := 0 }) = some v ∧
      memWrite .a7 v.a.addr v.width v.value (setup .a7 true [reg 1 0x01000000]) = .fault e) :=
  ⟨⟨_, _, rfl, by decide, by decide, by decide, rfl, by decide, by decide⟩, ⟨_, rfl, by decide⟩, ⟨_, _, rfl, rfl⟩⟩

/-- LDR of an odd address on core A9, and LDRB of 0 on core A7. -/
theorem witness_LoadToPc :
    (∃ v d u, loadView (setup .a9 false [word 0x02000010 0x02000101]).cur
        (.ldrImm { cond := 14, p := 1, u := 1, w := 0, rn := 12, rd := 15, offset := 16 }) = some v ∧
      condPassed v.cond (setup .a9 false []).cur = true ∧ v.rd = 15 ∧ v.a.wb = false ∧
      memRead .a9 v.a.addr v.width (setup .a9 false [word 0x02000010 0x02000101]) = .next (d, u) ∧ v.exchange = true ∧
      loadPcThumb (v.value d) (setup .a9 false []) = true ∧ Fetches true 0x02000100 u 0xCCDD 0xAABB) ∧
    (∃ v d u, loadView (setup .a7 false []).cur
        (.ldrbImm { cond := 14, p := 1, u := 1, w := 0, rn := 12, rd := 15, offset := 16 }) = some v ∧ v.rd = 15 ∧
      memRead .a7 v.a.addr v.width (setup .a7 false []) = .next (d, u) ∧ v.exchange = false ∧ Fetches false (v.value d) u 0 0) :=
  ⟨⟨_, _, _, rfl, by decide, by decide, by decide, rfl, by decide, by decide, by decide, by decide⟩,
    ⟨_, _, _, rfl, by decide, rfl, by decide, by decide, by decide⟩⟩

theorem witness_BaseR15WriteBack :
    (∃ v d u, loadView (setup .a7 false []).cur
        (.ldrImm { cond := 14, p := 0, u := 1, w := 0, rn := 15, rd := 0, offset := 4 }) = some v ∧
      condPassed v.cond (setup .a7 false []).cur = true ∧ v.a.wb = true ∧ v.rn = 15 ∧
      memRead .a7 v.a.addr v.width (setup .a7 false []) = .next (d, u)) ∧
    (∃ v u, storeView (setup .a7 false []) (.strImm { cond := 14, p := 0, u := 1, w := 0, rn := 15, rd := 0, offset := 4 }) =
        some v ∧ v.a.wb = true ∧ v.rn = 15 ∧ memWrite .a7 v.a.addr v.width v.value (setup .a7 false []) = .next u) ∧
    (∃ vs u, loadList (listRegs 0x0003) (blockStart 0 1 ((setup .a7 false []).x 15) 2) (setup .a7 false []) = .next (vs, u)) ∧
    (∃ u, storeList ((listRegs 0x0003).map (stmWord { cond := 14, p := 0, u := 1, s := 0, w := 1, rn := 15, list := 0x0003 }
        (blockWriteBack 1 ((setup .a7 false []).x 15) 2) (setup .a7 false []))) (blockStart 0 1 ((setup .a7 false []).x 15) 2)
        (setup .a7 false []) = .next u) ∧
    (∃ vs u v, loadList (listRegs 0x8000) (blockStart 0 1 ((setup .a9 false []).x 15) 1) (setup .a9 false []) = .next (vs, u) ∧
      pcOf vs = some v) ∧
    (∃ u, memWrite .a7 (blockStart 0 1 ((setup .a7 false []).x 15) 16) .w32 (storedValue 15 (setup .a7 false []))
      (setup .a7 false []) = .next u) ∧
    (∃ d u, memRead .a7 (blockStart 0 1 ((setup .a7 false []).x 15) 16) .w32 (setup .a7 false []) = .next (d, u)) :=
  ⟨⟨_, _, _, rfl, by decide, by decide, by decide, rfl⟩, ⟨_, _, rfl, by decide, by decide, rfl⟩, ⟨_, _, rfl⟩, ⟨_, rfl⟩,
    ⟨_, _, _, rfl, rfl⟩, ⟨_, rfl⟩, ⟨_, _, rfl⟩⟩

/-- LDRD and STRD, `Rd` = 0 and `Rd` = 14. -/
theorem witness_DoubleTransfer :
    (∃ a, doubleView (setup .a9 false []).cur
        (.ldrdImm { cond := 14, p := 1, u := 1, w := 1, rn := 12, rd := 14, immHi := 15, immLo := 15 }) =
          some (true, 14, 14, 12, a) ∧ a.wb = true ∧ (14 : BitVec 4).getLsbD 0 = false ∧
      (∃ lo u1 hi u2, memRead .a9 a.addr .w32 (setup .a9 false []) = .next (lo, u1) ∧
        memRead .a9 (a.addr + 4) .w32 u1 = .next (hi, u2)) ∧
      plainRead .a9 a.addr .w32 (setup .a9 false []) = some 0 ∧
      plainRead .a9 (a.addr + 4) .w32 (setup .a9 false []) = some 0xAABBCCDD) ∧
    (∃ a, doubleView (setup .a9 false []).cur
        (.strdReg { cond := 14, p := 1, u := 1, w := 0, rn := 12, rd := 14, sbz := 0, rm := 0 }) = some (false, 14, 14, 12, a) ∧
      (∃ u1 u2, memWrite .a9 a.addr .w32 ((setup .a9 false []).x 14) (setup .a9 false []) = .next u1 ∧
        memWrite .a9 (a.addr + 4) .w32 (storedValue (14 + 1) (setup .a9 false [])) u1 = .next u2) ∧
      (setup .a9 false []).buf.wf ∧ locate .a9 (alignDown a.addr .w32) .write (setup .a9 false []) = .buffer .mainRam 0 ∧
      locate .a9 (alignDown (a.addr + 4) .w32) .write (setup .a9 false []) = .buffer .mainRam 4) :=
  ⟨⟨_, rfl, by decide, by decide, ⟨_, _, _, _, rfl, rfl⟩, by decide, by decide⟩,
    ⟨_, rfl, ⟨_, _, rfl, rfl⟩, by decide, by decide, by decide⟩⟩

/-- Core A7 with a register at 0x04000100 that reads a constant and whose write handler accesses an address without a
registration. -/
def halfRegister : State :=
  registerMmio .a7 { addr := 0x04000100, width := .w32, read := .stub 7,
                     write := .complex (.act (.write .a7 .w32 (.const 0x01000000) (.const 0)) .done) } (setup .a7 false [])

/-- SWP to a register, SWPB to R15; a faulting read; and a stub
register whose write handler accesses an address without a registration. -/
theorem witness_Swap :
    (∃ f, swapView (setup .a7 false []) (.swp { cond := 14, rn := 12, rd := 0, sbz := 0, rm := 1 }) =
      some ({ cond := 14, rn := 12, rd := 0, sbz := 0, rm := 1 }, .w32, f)) ∧
    (∃ f, swapView (setup .a7 false []) (.swpb { cond := 14, rn := 12, rd := 15, sbz := 0, rm := 1 }) =
      some ({ cond := 14, rn := 12, rd := 15, sbz := 0, rm := 1 }, .w8, f)) ∧
    condPassed 14 (setup .a7 false []).cur = true ∧
    (∃ d u1 u2, memRead .a7 0x02000000 .w32 (setup .a7 false []) = .next (d, u1) ∧
      memWrite .a7 0x02000000 .w32 0 u1 = .next u2) ∧
    (∃ e, memRead .a7 0x01000000 .w32 (setup .a7 false []) = .fault e) ∧
    (∃ d u1 e, memRead .a7 0x04000100 .w32 halfRegister = .next (d, u1) ∧
      memWrite .a7 0x04000100 .w32 0 u1 = .fault e) ∧ (setup .a7 false []).buf.wf ∧
    plainRead .a7 0x02000000 .w32 (setup .a7 false []) = some 0 ∧
    locate .a7 (alignDown 0x02000000 .w32) .write (setup .a7 false []) = .buffer .mainRam 0 :=
  ⟨⟨_, rfl⟩, ⟨_, rfl⟩, by decide, ⟨_, _, _, rfl, rfl⟩, ⟨_, rfl⟩, ⟨_, _, _, rfl, rfl⟩, by decide, by decide, by decide⟩

/-- Two plain words; a list with and without the base. -/
theorem witness_LoadMultiple :
    PlainWords 0x02000100 [0xAABBCCDD, 0x11223344] (setup .a7 false []) ∧
    (∃ vs u, loadList (listRegs 0x0003) (blockStart 0 1 ((setup .a7 false []).x 12) 2) (setup .a7 false []) = .next (vs, u)) ∧
    condPassed 14 (setup .a7 false []).cur = true ∧ ((0x7FFF : BitVec 16) ≠ 0 ∧ (0x7FFF : BitVec 16).getLsbD 15 = false) ∧
    (setup .a7 false [status 0xD2]).cur.bank ≠ .usr ∧ ldmWritesBack .a7 1 12 0x0003 = true ∧
    ldmWritesBack .a9 1 1 0x0002 = true ∧ ldmWritesBack .a7 1 1 0x0002 = false := by
  refine ⟨?_, ⟨_, _, rfl⟩, by decide, by decide, by decide, by decide, by decide, by decide⟩
  intro k h
  match k, h with
  | 0, _ => rfl
  | 1, _ => rfl

/-- R15 alone in the list, to Thumb on core A9; with S = 1. -/
theorem witness_LoadMultipleToPc :
    (∃ vs u v, loadList (listRegs 0x8000) (blockStart 0 1 ((setup .a9 false [word 0x02000000 0x02000101]).x 12) 1)
        (setup .a9 false [word 0x02000000 0x02000101]) = .next (vs, u) ∧ pcOf vs = some v ∧
      loadPcThumb v (setup .a9 false []) = true ∧ Fetches true (loadPcTarget v (setup .a9 false [])) u 0xCCDD 0xAABB) ∧
    condPassed 14 (setup .a9 false []).cur = true ∧ (0x8000 : BitVec 16).getLsbD 15 = true :=
  ⟨⟨_, _, _, rfl, rfl, by decide, by decide, by decide⟩, by decide, by decide⟩

/-- One register, and the sixteen; two words in main RAM. -/
theorem witness_StoreMultiple :
    (∃ u, storeList ((listRegs 0xFFFF).map (stmWord { cond := 14, p := 0, u := 1, s := 1, w := 1, rn := 12, list := 0xFFFF }
        (blockWriteBack 1 ((setup .a7 false []).x 12) 16) (setup .a7 false [])))
        (blockStart 0 1 ((setup .a7 false []).x 12) 16) (setup .a7 false []) = .next u) ∧
    condPassed 14 (setup .a7 false []).cur = true ∧ (setup .a7 false []).buf.wf ∧
    ∀ k < ([1, 2] : List Word).length, locate .a7 (alignDown ((0x02000002 : Word) + BitVec.ofNat 32 (4 * k)) .w32) .write
      (setup .a7 false []) = .buffer .mainRam (0 + 4 * k) := by
  refine ⟨⟨_, rfl⟩, by decide, by decide, fun k h => ?_⟩
  match k, h with
  | 0, _ => decide
  | 1, _ => decide

/-- LDM on both cores, PUSH on core A7. -/
theorem witness_EmptyList :
    (∃ v, emptyView (.ldm { cond := 14, p := 0, u := 1, s := 0, w := 1, rn := 12, list := 0 }) = some v ∧
      condPassed v.cond (setup .a9 false []).cur = true ∧ v.w = 1 ∧ v.rn ≠ 15 ∧ v.load = true ∧
      ∃ d u, memRead .a7 (blockStart v.p v.u ((setup .a7 false []).x v.rn) 16) .w32 (setup .a7 false []) = .next (d, u)) ∧
    (∃ v, emptyView (.tPush { r := 0, rlist := 0 }) = some v ∧ v.load = false ∧
      ∃ u, memWrite .a7 (blockStart v.p v.u ((setup .a7 true []).x v.rn) 16) .w32 (storedValue 15 (setup .a7 true []))
        (setup .a7 true []) = .next u) ∧ (setup .a7 false []).running = .a7 ∧ (setup .a9 false []).running = .a9 :=
  ⟨⟨_, rfl, by decide, by decide, by decide, by decide, ⟨_, _, rfl⟩⟩, ⟨_, rfl, by decide, ⟨_, rfl⟩⟩, by decide, by decide⟩

/-- BX to Thumb, BLX label, Thumb BL second half; the Thumb conditional branch. -/
theorem witness_Jumps :
    (∃ v, armJump (setup .a7 false [reg 0 0x02000101]) (.bx { cond := 14, sbo := 0xFFF, rm := 0 }) = some v ∧
      condPassed v.cond (setup .a7 false []).cur = true ∧ Fetches v.thumb v.target (setup .a7 false [reg 0 0x02000101]) 0xCCDD 0xAABB) ∧
    (∃ v, armJump (setup .a9 false []) (.blxLabel { h := 1, imm24 := 0 }) = some v ∧ v.link = some 0x02000004 ∧
      Fetches v.thumb v.target (setup .a9 false []) 0 0) ∧
    (∃ v, thumbJump (setup .a7 true []) (.tBlSuffix { offset := 0 }) = some v ∧ v.link = some 0x02000003 ∧
      Fetches v.thumb v.target (setup .a7 true []) 0 0) ∧
    (∃ v, thumbJump (setup .a7 true []) (.tBcond { cond := 1, soffset := 0x7F }) = some v ∧
      condPassed v.cond (setup .a7 true []).cur = true) :=
  ⟨⟨_, rfl, by decide, by decide, by decide⟩, ⟨_, rfl, by decide, by decide, by decide⟩,
    ⟨_, rfl, by decide, by decide, by decide⟩, ⟨_, rfl, by decide⟩⟩

/-- The core and the condition; then for each clause a field of coprocessor numbers that selects it: the three registers, the
two waits, the drain and an identification register, which no other clause takes. -/
theorem witness_Cp15Access :
    ((setup .a9 false []).running = .a9 ∧ condPassed 14 (setup .a9 false []).cur = true) ∧
    (let at_ : BitVec 4 → BitVec 4 → BitVec 3 → CoprocOps :=
       fun n m k => { cond := 14, crn := n, rd := 15, op2 := k, crm := m }
     let control : CoprocOps → Bool := fun o => decide (o.crn = 1 ∧ o.crm = 0 ∧ o.op2 = 0)
     let dtcm : CoprocOps → Bool := fun o => decide (o.crn = 9 ∧ o.crm = 1 ∧ o.op2 = 0)
     let itcm : CoprocOps → Bool := fun o => decide (o.crn = 9 ∧ o.crm = 1 ∧ o.op2 = 1)
     let wait : CoprocOps → Bool := fun o =>
       decide (o.crn = 7 ∧ ((o.crm = 0 ∧ o.op2 = 4) ∨ (o.crm = 8 ∧ o.op2 = 2)))
     [at_ 1 0 0, at_ 9 1 0, at_ 9 1 1, at_ 7 0 4, at_ 7 8 2, at_ 7 10 4, at_ 0 0 0].map
         (fun o => [control o, dtcm o, itcm o, wait o]) =
       [[true, false, false, false], [false, true, false, false], [false, false, true, false], [false, false, false, true],
        [false, false, false, true], [false, false, false, false], [false, false, false, false]]) := by decide

/-- Below R15; a high register that is R15; a compare. -/
theorem witness_ThumbResults :
    (∃ r, thumbAluOp (setup .a7 true []) (.tRorReg { rs := 7, rd := 7 }) = some r) ∧
    (∃ r, thumbPlainOp (setup .a7 true []) (.tMovHi { h1 := 1, h2 := 1, rsLow := 4, rdLow := 7 }) = some r ∧ r.rd = 15 ∧
      Fetches (setup .a7 true []).cur.t r.value (setup .a7 true []) 0 0) ∧
    (∃ f, thumbCompareOp (setup .a7 true []) (.tCmpHi { h1 := 1, h2 := 1, rsLow := 7, rdLow := 7 }) = some f) :=
  ⟨⟨_, rfl⟩, ⟨_, rfl, by decide, by decide, by decide⟩, ⟨_, rfl⟩⟩

/-- Every register listed, and one; POP with and without PC; a base inside and outside the list. -/
theorem witness_ThumbBlockTransfer :
    (∃ u, storeList ((stackRegs { r := 1, rlist := 0xFF } 14).map (setup .a7 true [reg 13 0x02000200]).x)
        ((setup .a7 true [reg 13 0x02000200]).x 13 - BitVec.ofNat 32 (4 * 9)) (setup .a7 true [reg 13 0x02000200]) = .next u) ∧
    (∃ vs u, loadList (stackRegs { r := 0, rlist := 0x80 } 15) ((setup .a7 true [reg 13 0x02000100]).x 13)
        (setup .a7 true [reg 13 0x02000100]) = .next (vs, u)) ∧
    (∃ vs u v, loadList (stackRegs { r := 1, rlist := 0 } 15) ((setup .a7 true [reg 13 0x02000000]).x 13)
        (setup .a7 true [reg 13 0x02000000]) = .next (vs, u) ∧ pcOf vs = some v ∧
      Fetches (loadPcThumb v (setup .a7 true [])) (loadPcTarget v (setup .a7 true [])) u 0 0) ∧
    (∃ u, storeList ((lowRegs 0x03).map (setup .a9 true [reg 1 0x02000100]).x) ((setup .a9 true [reg 1 0x02000100]).x (low 1))
        (setup .a9 true [reg 1 0x02000100]) = .next u) ∧
    (∃ vs u, loadList (lowRegs 0x02) ((setup .a9 true [reg 1 0x02000100]).x (low 1)) (setup .a9 true [reg 1 0x02000100]) =
      .next (vs, u)) :=
  ⟨⟨_, rfl⟩, ⟨_, _, rfl⟩, ⟨_, _, _, rfl, rfl, by decide, by decide⟩, ⟨_, rfl⟩, ⟨_, _, rfl⟩⟩

end Sys2Proof.Tests
end

section
/-! SUPPORT. What an instruction that completes can have done, once for every row of the opcode table (R330): the inversion lemma of
`exec`, from which the invariant and the frames of the state follow. -/

namespace Sys2Proof.Machine

/-- The loads of a list answer its registers in its order (R292). -/
theorem regs_of_loadList (regs : List (BitVec 4)) :
    ∀ a s q t, loadList regs a s = .next (q, t) → q.map Prod.fst = regs := by
  induction regs with
  | nil => intro a s q t e; cases e; rfl
  | cons i rest ih =>
    intro a s q t e
    obtain ⟨⟨v, u⟩, -, e⟩ := bind_eq_next.1 e
    obtain ⟨⟨vs, w⟩, e', e⟩ := bind_eq_next.1 e
    cases e
    simp [ih _ _ _ _ e']

/-- A word was loaded for R15 exactly when R15 is among the loaded registers. -/
theorem pcOf_isSome (vs : List (BitVec 4 × Word)) : (pcOf vs).isSome = true ↔ 15 ∈ vs.map Prod.fst := by
  simp [pcOf]

theorem mem_listRegs (list : BitVec 16) (i : BitVec 4) : i ∈ listRegs list ↔ list.getLsbD i.toNat = true := by
  simp only [listRegs, List.mem_map, List.mem_filter, List.mem_range]
  constructor
  · rintro ⟨n, ⟨hn, hl⟩, rfl⟩
    rwa [BitVec.toNat_ofNat, Nat.mod_eq_of_lt hn]
  · intro h
    exact ⟨i.toNat, ⟨i.isLt, h⟩, by simp⟩

/-- A block transfer moves R15 only if the list names it or is empty (R290, R297). -/
theorem pc_mem_transferRegs {c : CoreId} {list : BitVec 16} (h : 15 ∈ (transferRegs c list).1) :
    (list.getLsbD 15 || list == 0) = true := by
  unfold transferRegs at h
  split at h
  · next h0 => simp [h0]
  · simpa using .inl ((mem_listRegs list 15).1 h)

/-- What an instruction that completes has done: an ordinary change, or one of the four changes R330 reserves to the
instructions of `mayChangeMode`. -/
inductive Effect (i : Instr) (s t : State) : Prop where
  | ordinary (h : Ordinary s t)
  | exceptionReturn (hm : mayChangeMode i = true) (u : State) (v : Word) (h : Ordinary s u)
      (e : returnFromException v u = .next t)
  | cpsrWrite (hm : mayChangeMode i = true) (f : BitVec 4) (v : Word) (e : msrCpsr f v s = .next t)
  | spsrWrite (hm : mayChangeMode i = true) (f : BitVec 4) (v : Word) (e : msrSpsr f v s = .next t)
  | swi (hm : mayChangeMode i = true) (e : raiseSwi s = .next t)

theorem effect_conditional {i : Instr} {cond : BitVec 4} {s t : State} {body : Res State}
    (e : conditional cond s body = .next t) (h : body = .next t → Effect i s t) : Effect i s t := by
  unfold conditional at e
  split at e
  · exact h e
  · exact .ordinary (ordinary_next e)

/-- A data-processing instruction returns from an exception exactly where R212 says. -/
theorem effect_dataProcessing {i : Instr} {h : DpHead} {a : Alu} {s t : State}
    (hm : mayChangeMode i = (h.rd == 15 && h.s == 1)) (e : conditional h.cond s (dpWrite h a s) = .next t) : Effect i s t :=
  effect_conditional e fun e => by
    by_cases hr : (h.rd == 15 && h.s == 1) = true
    · obtain ⟨hd, hs⟩ : h.rd = 15 ∧ h.s = 1 := by simpa using hr
      rw [dpWrite, if_pos hd, if_neg (by rw [hs]; decide)] at e
      exact .exceptionReturn (hm.trans hr) s _ (.refl s) e
    · exact .ordinary (ordinary_dpWrite (by simpa using hr) e)

/-- LDM returns from an exception exactly where its S form moves R15 (R294, R296). -/
theorem effect_ldm {o : BdtOps} {s t : State} (e : loadMultiple o s = .next t) : Effect (.ldm o) s t := by
  by_cases hs : o.s = 1
  · unfold loadMultiple at e
    obtain ⟨⟨q, u⟩, hl, e⟩ := bind_eq_next.1 e
    obtain ⟨v, hb, e⟩ := bind_eq_next.1 e
    have hv : Ordinary s v := (ordinary_loadList _ _ _ _ _ hl).trans (ordinary_if hb ordinary_writeReg ordinary_next)
    dsimp only at e
    split at e
    · exact .ordinary (hv.trans ((ordinary_writeList _ _ _).trans (ordinary_if e ordinary_writeReg ordinary_next)))
    · next pc hpc =>
      rw [if_pos hs] at e
      obtain ⟨w, hw, e⟩ := bind_eq_next.1 e
      have h15 : 15 ∈ (transferRegs s.running o.list).1 := by
        rw [← regs_of_loadList _ _ _ _ _ hl, ← pcOf_isSome, hpc]; rfl
      have hm : mayChangeMode (.ldm o) = true := by
        simp only [mayChangeMode, hs, pc_mem_transferRegs h15]; rfl
      exact .exceptionReturn hm w pc
        (hv.trans ((ordinary_writeList _ _ _).trans (ordinary_if hw ordinary_writeReg ordinary_next))) e
  · exact .ordinary (ordinary_loadMultiple hs e)

/-- Everything an instruction can do. -/
theorem exec_effect {i : Instr} {s t : State} (e : exec i s = .next t) : Effect i s t := by
  cases i with
  | andImm h x | andShiftImm h x | andShiftReg h x | eorImm h x | eorShiftImm h x | eorShiftReg h x | subImm h x
  | subShiftImm h x | subShiftReg h x | rsbImm h x | rsbShiftImm h x | rsbShiftReg h x | addImm h x
  | addShiftImm h x | addShiftReg h x | adcImm h x | adcShiftImm h x | adcShiftReg h x | sbcImm h x
  | sbcShiftImm h x | sbcShiftReg h x | rscImm h x | rscShiftImm h x | rscShiftReg h x | orrImm h x
  | orrShiftImm h x | orrShiftReg h x | movImm h x | movShiftImm h x | movShiftReg h x | bicImm h x
  | bicShiftImm h x | bicShiftReg h x | mvnImm h x | mvnShiftImm h x | mvnShiftReg h x =>
    exact effect_dataProcessing rfl e
  | tstImm h x | tstShiftImm h x | tstShiftReg h x | teqImm h x | teqShiftImm h x | teqShiftReg h x | cmpImm h x
  | cmpShiftImm h x | cmpShiftReg h x | cmnImm h x | cmnShiftImm h x | cmnShiftReg h x =>
    exact .ordinary (ordinary_conditional e ordinary_dpCompare)
  | mul o | mla o =>
    exact .ordinary (ordinary_conditional e fun e => (ordinary_setNz _ _ _).trans (ordinary_writeReg e))
  | umull o | umlal o | smull o | smlal o =>
    exact .ordinary (ordinary_conditional e fun e => (ordinary_setNzLong _ _ _).trans (ordinary_writeLong e))
  | clz o | smulwY o | smulXy o =>
    exact .ordinary (ordinary_conditional e fun e => ordinary_onA9 e ordinary_writeReg)
  | smlalXy o =>
    exact .ordinary (ordinary_conditional e fun e => ordinary_onA9 e ordinary_writeLong)
  | qadd o | qsub o | qdadd o | qdsub o | smlaXy o | smlawY o =>
    exact .ordinary (ordinary_conditional e fun e => ordinary_onA9 e fun e =>
      (ordinary_orQ _ _).trans (ordinary_writeReg e))
  | swp o =>
    exact .ordinary (ordinary_conditional e (ordinary_swap getOrdinary_loadWord))
  | swpb o =>
    exact .ordinary (ordinary_conditional e (ordinary_swap getOrdinary_loadByte))
  | strhReg o | strhImm o | strImm o | strReg o | strbImm o | strbReg o | strtImm o | strtReg o | strbtImm o
  | strbtReg o =>
    exact .ordinary (ordinary_conditional e ordinary_singleStore)
  | ldrImm o | ldrReg o | ldrtImm o | ldrtReg o =>
    exact .ordinary (ordinary_conditional e (ordinary_singleLoad getOrdinary_loadWord fun _ _ _ => ordinary_putWord))
  | ldrbImm o | ldrbReg o | ldrbtImm o | ldrbtReg o =>
    exact .ordinary (ordinary_conditional e (ordinary_singleLoad getOrdinary_loadByte fun _ _ _ => ordinary_writeReg))
  | ldrhReg o | ldrhImm o =>
    exact .ordinary (ordinary_conditional e (ordinary_singleLoad getOrdinary_loadHalf fun _ _ _ => ordinary_writeReg))
  | ldrsbReg o | ldrsbImm o =>
    exact .ordinary (ordinary_conditional e (ordinary_singleLoad getOrdinary_loadSignedByte fun _ _ _ => ordinary_writeReg))
  | ldrshReg o | ldrshImm o =>
    exact .ordinary (ordinary_conditional e (ordinary_singleLoad getOrdinary_loadSignedHalf fun _ _ _ => ordinary_writeReg))
  | ldrdReg o | ldrdImm o =>
    exact .ordinary (ordinary_conditional e fun e => ordinary_onA9 e ordinary_doubleLoad)
  | strdReg o | strdImm o =>
    exact .ordinary (ordinary_conditional e fun e => ordinary_onA9 e ordinary_doubleStore)
  | stm o =>
    exact .ordinary (ordinary_conditional e ordinary_storeMultiple)
  | ldm o =>
    exact effect_conditional e effect_ldm
  | mrs o =>
    exact .ordinary (ordinary_conditional e ordinary_mrs)
  | msrCpsrReg o | msrCpsrImm o =>
    exact effect_conditional e fun e => .cpsrWrite rfl _ _ e
  | msrSpsrReg o | msrSpsrImm o =>
    exact effect_conditional e fun e => .spsrWrite rfl _ _ e
  | swi o =>
    exact effect_conditional e fun e => .swi rfl e
  | tSwi o =>
    exact .swi rfl e
  | b o =>
    exact .ordinary (ordinary_conditional e ordinary_branchTo)
  | bl o =>
    exact .ordinary (ordinary_conditional e fun e => (ordinary_setX _ _ _ (by decide)).trans (ordinary_branchTo e))
  | blxLabel o =>
    exact .ordinary (ordinary_blxLabel e)
  | bx o =>
    exact .ordinary (ordinary_conditional e ordinary_exchangeTo)
  | blxReg o =>
    exact .ordinary (ordinary_conditional e fun e => ordinary_onA9 e fun e =>
      (ordinary_setX _ _ _ (by decide)).trans (ordinary_exchangeTo e))
  | pld o =>
    exact .ordinary (ordinary_next e)
  | mrc o =>
    exact .ordinary (ordinary_conditional e fun e => ordinary_onA9 e ordinary_mrc)
  | mcr o =>
    exact .ordinary (ordinary_conditional e fun e => ordinary_onA9 e fun e =>
      (ordinary_cp15Write _ _ _ _ _).trans (ordinary_next e))
  | coprocOther o | bkpt o | unkDoubleA7 o | unkMiscA o | unkMiscB o | unkImm o | unk1001 o | unkMedia o
  | unkLdcStc o | unkCdp o =>
    exact .ordinary (ordinary_conditional e (ordinary_logUnknown _ _ _))
  | tBkpt o | tUnk1011 o | tUnkDe o | tUnk11101 o =>
    exact .ordinary (ordinary_logUnknown _ _ _ e)
  | tLslImm o | tLsrImm o | tAsrImm o | tAddReg o | tSubReg o | tAddImm3 o | tSubImm3 o | tMovImm8 o | tAddImm8 o
  | tSubImm8 o | tAnd o | tEor o | tLslReg o | tLsrReg o | tAsrReg o | tAdc o | tSbc o | tRorReg o | tNeg o
  | tOrr o | tMul o | tBic o | tMvn o =>
    exact .ordinary (ordinary_thumbAlu e)
  | tCmpImm8 o | tTst o | tCmpReg o | tCmn o | tCmpHi o =>
    exact .ordinary (ordinary_thumbCompare e)
  | tAddHi o | tMovHi o =>
    exact .ordinary (ordinary_writeReg e)
  | tBx o | tBxH1 o =>
    exact .ordinary (ordinary_exchangeTo e)
  | tBlxReg o =>
    exact .ordinary (ordinary_onA9 e fun e => (ordinary_setX _ _ _ (by decide)).trans (ordinary_exchangeTo e))
  | tLdrReg o | tLdrImm o | tLdrSp o =>
    exact .ordinary (ordinary_thumbLoad getOrdinary_loadWord e)
  | tLdrbReg o | tLdrbImm o =>
    exact .ordinary (ordinary_thumbLoad getOrdinary_loadByte e)
  | tLdrhReg o | tLdrhImm o =>
    exact .ordinary (ordinary_thumbLoad getOrdinary_loadHalf e)
  | tLdsbReg o =>
    exact .ordinary (ordinary_thumbLoad getOrdinary_loadSignedByte e)
  | tLdshReg o =>
    exact .ordinary (ordinary_thumbLoad getOrdinary_loadSignedHalf e)
  | tLdrPc o =>
    exact .ordinary (ordinary_thumbLoad (getOrdinary_load .w32) e)
  | tStrReg o | tStrbReg o | tStrhReg o | tStrImm o | tStrbImm o | tStrhImm o | tStrSp o =>
    exact .ordinary (ordinary_store e)
  | tAddPc o | tAddSp o =>
    exact .ordinary ((ordinary_setX _ _ _ (low_ne15 _)).trans (ordinary_next e))
  | tIncSp o | tDecSp o | tBlPrefix o =>
    exact .ordinary ((ordinary_setX _ _ _ (by decide)).trans (ordinary_next e))
  | tPush o =>
    exact .ordinary (ordinary_push e)
  | tPop o =>
    exact .ordinary (ordinary_pop e)
  | tStmia o =>
    exact .ordinary (ordinary_storeMultiple e)
  | tLdmia o =>
    exact .ordinary (ordinary_thumbLoadMultiple e)
  | tBcond o =>
    exact .ordinary (ordinary_if e ordinary_branchTo ordinary_next)
  | tB o =>
    exact .ordinary (ordinary_branchTo e)
  | tBlSuffix o =>
    exact .ordinary ((ordinary_setX _ _ _ (by decide)).trans (ordinary_branchTo e))
  | tBlxSuffix o =>
    exact .ordinary (ordinary_onA9 e ordinary_blxSuffix)

/-- An instruction outside `mayChangeMode` is ordinary (R330). -/
theorem exec_ordinary {i : Instr} {s t : State} (hm : mayChangeMode i = false) (e : exec i s = .next t) : Ordinary s t := by
  cases exec_effect e with
  | ordinary h => exact h
  | exceptionReturn h | cpsrWrite h | spsrWrite h | swi h => exact absurd (hm.symm.trans h) (by decide)

end Sys2Proof.Machine
end

section
/-! PROOFS. Every step keeps the invariant of the machine (O5). -/

namespace Sys2Proof.Machine

/-- After an instruction either the pipeline was refilled or the instruction set is the old one: what `advance` needs (R177). -/
def Flows (s t : State) : Prop := t.branched = true ∨ t.cur.t = s.cur.t

theorem Ordinary.flows {s t : State} (h : Ordinary s t) : Flows s t :=
  h.flow.elim (fun k => .inr k.2.1) (fun j => .inl j.1)

theorem flows_branchTo {target : Word} {r s t : State} (e : branchTo target s = .next t) : Flows r t :=
  .inl (branchTo_spec e).1.branched

theorem flows_returnFromException {v : Word} {r s t : State} (e : returnFromException v s = .next t) : Flows r t := by
  obtain ⟨_, -, e⟩ := bind_eq_next.1 e
  obtain ⟨_, -, e⟩ := bind_eq_next.1 e
  exact flows_branchTo e

theorem flows_enterException {m v lr : Word} {r s t : State} (e : enterException m v lr s = .next t) : Flows r t := by
  obtain ⟨_, -, e⟩ := bind_eq_next.1 e
  exact flows_branchTo e

/-- MSR never writes T (R328). -/
theorem t_msrCpsr {f : BitVec 4} {v : Word} {s t : State} (e : msrCpsr f v s = .next t) : t.cur.t = s.cur.t := by
  obtain ⟨_, -, rfl⟩ := writeCpsr_spec e
  have hm : (cpsrMask f s.cur).getLsbD 5 = false := by simp [cpsrMask]
  simpa [CoreState.t] using t_merge s.cur.cpsr _ v hm

theorem t_msrSpsr {f : BitVec 4} {v : Word} {s t : State} (e : msrSpsr f v s = .next t) : t.cur.t = s.cur.t := by
  obtain ⟨_, -, e⟩ := bind_eq_next.1 e
  rw [writeSpsr_spec e, cur_setCur]
  rfl

/-- Every effect keeps the invariant. -/
theorem Effect.inv {i : Instr} {s t : State} (h : Effect i s t) (hi : s.Inv) : t.Inv := by
  cases h with
  | ordinary h => exact h.inv hi
  | exceptionReturn _ u v h e => exact inv_returnFromException (h.inv hi) e
  | cpsrWrite _ f v e => exact inv_msrCpsr hi e
  | spsrWrite _ f v e => exact inv_msrSpsr hi e
  | swi _ e => exact inv_enterException hi e

/-- Every effect changes the instruction set by a flush only. -/
theorem Effect.flows {i : Instr} {s t : State} (h : Effect i s t) : Flows s t := by
  cases h with
  | ordinary h => exact h.flows
  | exceptionReturn _ u v _ e => exact flows_returnFromException e
  | cpsrWrite _ f v e => exact .inr (t_msrCpsr e)
  | spsrWrite _ f v e => exact .inr (t_msrSpsr e)
  | swi _ e => exact flows_enterException e

theorem inv_addCycles {s : State} (n : Dword) (hi : s.Inv) : (addCycles n s).Inv := by
  have hk : s.cur.Inv := cores_inv hi s.running
  exact inv_setCur hi ⟨hk.mode, hk.latch, hk.pc, hk.pipe⟩

/-- One step of the running core keeps the invariant (R173). -/
theorem inv_coreStep {s t : State} (hi : s.Inv) (e : coreStep s = .next t) : t.Inv := by
  obtain ⟨u, hp, e⟩ := bind_eq_next.1 e
  obtain ⟨hu, htu⟩ := inv_prefetch hi hp
  obtain ⟨v, hx, e⟩ := bind_eq_next.1 e
  have hv := exec_effect hx
  have hf : v.branched = true ∨ v.cur.t = s.cur.t := hv.flows.imp_right fun h => h.trans htu
  cases e
  exact inv_addCycles _ (inv_advance v s.cur.t (hv.inv hu) hf)

/-- The owner's next action keeps the invariant, whatever the call (R6, R550). -/
theorem inv_ownerStep {s t : State} (hi : s.Inv) (e : ownerStep s = .next t) : t.Inv := by
  have hp : s.pop.Inv := inv_pop hi
  unfold ownerStep at e
  split at e
  next => cases e; exact inv_congr s.running s.branched _ hi
  next => exact inv_runOnce (fun _ _ => inv_coreStep) hi e
  next => exact inv_fireOne hi e
  next => cases e; exact ⟨hp.a7, hp.a9, hp.memory, hp.fields, hp.queue, hp.handles⟩
  next => cases e; exact inv_resetCore _ hp
  next => exact inv_directBoot hp e
  next => cases e; exact ((busKept_registerEvent _ _ _).trans (busKept_setField _ _ _)).ordinary.inv hp
  next => cases e; exact (busKept_registerMmio _ _ _).ordinary.inv hp
  next => exact inv_loadBytes _ _ _ _ _ hp e
  next => exact (runScript_keeps _ _ _ e).ordinary.inv hp

/-- Settles O5: `Effect` says once what an instruction can do, and each of its cases, as each of the owner's calls, keeps the
invariant. -/
theorem stepKeepsInvariant : Obligations.StepKeepsInvariant := by
  intro s t hi e
  unfold step at e
  split at e
  · cases e
  · exact inv_ownerStep hi e

end Sys2Proof.Machine
end

section
/-! PROOFS. Reset and construction (O4, O6) and the legal modes (O29). -/

namespace Sys2Proof.Machine

/-- The seven modes (R13, R14). -/
def legalModes : List (BitVec 5) := [0x10, 0x11, 0x12, 0x13, 0x17, 0x1B, 0x1F]

/-- A mode has a bank exactly when it is one of the seven (R13). -/
theorem bankOf_isSome_iff (m : BitVec 5) : (bankOf m).isSome = true ↔ m ∈ legalModes := by
  revert m; decide

theorem writeCpsr_valid {v : Word} {s : State} {new : Bank} (h : bankOf (v.extractLsb' 0 5) = some new) :
    writeCpsr v s = .next (s.setCur { swapBanks s.cur.bank new s.cur with cpsr := v }.updateLatch) := by
  unfold writeCpsr
  rw [switchMode_valid h]
  simp [CoreState.setMode]

theorem writeCpsr_invalid {v : Word} {s : State} (h : bankOf (v.extractLsb' 0 5) = none) :
    writeCpsr v s = .fault (.invalidMode (v.extractLsb' 0 5)) := by
  unfold writeCpsr
  rw [switchMode_invalid h, bind_fault]

/-- Settles O29: a value has a bank exactly when it is a mode, and the two writers ask for the bank first. -/
theorem invalidMode : Obligations.InvalidMode := by
  intro v s
  constructor
  · intro h
    have hb : bankOf (v.extractLsb' 0 5) = none := by
      rw [← Option.not_isSome_iff_eq_none, bankOf_isSome_iff]
      exact fun hm => h _ hm rfl
    exact ⟨switchMode_invalid hb, writeCpsr_invalid hb⟩
  · rintro ⟨m, hm, rfl⟩
    obtain ⟨new, hb⟩ := Option.isSome_iff_exists.1 ((bankOf_isSome_iff _).2 hm)
    exact ⟨⟨_, switchMode_valid hb⟩, _, writeCpsr_valid hb, by simp⟩

/-- The invariant speaks of neither the page tables nor the registry. -/
theorem coreInv_initial (p : Parameters) (c : CoreId) : (CoreState.initial p c).Inv :=
  ⟨inv_reset.mode, inv_reset.latch, inv_reset.pc, inv_reset.pipe⟩

/-- The machine right after construction meets the invariant, whatever the parameters. -/
theorem inv_initial (p : Parameters) : (State.initial p).Inv :=
  ⟨coreInv_initial p .a7, coreInv_initial p .a9, wf_zero, wf_nil, List.Pairwise.nil, List.Pairwise.nil,
    fun _ he => absurd he List.not_mem_nil⟩

/-- Settles O4: the cleared core meets the core invariant, and memory, queue and registry are empty. -/
theorem resetInvariant : Obligations.ResetInvariant := inv_initial .default

/-- An image read back from where it was placed (R572). -/
theorem get_ofBytes (bs : List Byte) :
    ∀ o i (h : i < bs.length), Memory.get (Memory.ofBytes o bs) (o + i) = bs[i] := by
  induction bs with
  | nil => intro o i h; exact absurd h (Nat.not_lt_zero i)
  | cons b rest ih =>
    intro o i h
    have hge := (wf_ofBytes (o + 1) rest).2
    cases i with
    | zero =>
      show Memory.get (Memory.ofBytes o (b :: rest)) o = b
      unfold Memory.ofBytes
      split
      · next hb => rw [get_of_lt_head _ _ hge, hb]
      · simp [Memory.get]
    | succ i =>
      have hi := ih (o + 1) i (Nat.lt_of_succ_lt_succ h)
      rw [show o + 1 + i = o + (i + 1) by omega] at hi
      unfold Memory.ofBytes
      split
      · exact hi
      · rw [Memory.get, if_neg (by omega)]; exact hi

/-- The boot ROM of core A7 is its image (R572). -/
theorem byteAt_construct_biosA7 (par : Parameters) (a b : List Byte) (o : Nat) (ha : a.length = par.biosSize.get .a7)
    (h : o < a.length) : (construct par (some a) (some b)).byteAt .biosA7 o = a[o] := by
  show Memory.get (Memory.ofBytes 0 (a.take (par.biosSize.get .a7))) o = a[o]
  simpa [← ha] using get_ofBytes a 0 o h

/-- The boot ROM of core A9 is its image (R572). -/
theorem byteAt_construct_biosA9 (par : Parameters) (a b : List Byte) (o : Nat) (hb : b.length = par.biosSize.get .a9)
    (h : o < b.length) : (construct par (some a) (some b)).byteAt .biosA9 o = b[o] := by
  show Memory.get (Memory.ofBytes 0 (b.take (par.biosSize.get .a9))) o = b[o]
  simpa [← hb] using get_ofBytes b 0 o h

/-- Every other buffer is zero (R45). -/
theorem byteAt_construct_other (par : Parameters) (a b : List Byte) (d : Buf) (o : Nat) (h7 : d ≠ .biosA7)
    (h9 : d ≠ .biosA9) : (construct par (some a) (some b)).byteAt d o = 0 := by
  cases d with
  | biosA7 => exact absurd rfl h7
  | biosA9 => exact absurd rfl h9
  | _ => rfl

/-- A constructed core is the initial one. -/
theorem core_construct (par : Parameters) (a b : List Byte) (c : CoreId) :
    (construct par (some a) (some b)).core c = .initial par c := by
  cases c <;> rfl

theorem reg_initial (p : Parameters) (c : CoreId) (i : BitVec 4) : (CoreState.initial p c).reg i = 0 := by
  simp [CoreState.reg, CoreState.initial, CoreState.cleared]

theorem fiqR8_initial (p : Parameters) (c : CoreId) (i : Fin 5) : (CoreState.initial p c).fiqR8.get i = 0 := by
  simp [CoreState.initial, CoreState.cleared]

theorem nonfiqR8_initial (p : Parameters) (c : CoreId) (i : Fin 5) : (CoreState.initial p c).nonfiqR8.get i = 0 :=
  fiqR8_initial p c i

/-- Settles O6: a constructed machine is the initial one but for its two boot ROMs. -/
theorem constructedState : Obligations.ConstructedState := by
  intro par a b ha hb
  refine ⟨rfl, fun c => ?_, rfl, rfl, rfl, rfl, rfl, fun d o => byteAt_construct_other par a b d o,
    fun o => byteAt_construct_biosA7 par a b o ha, fun o => byteAt_construct_biosA9 par a b o hb, rfl, rfl, rfl, rfl, rfl⟩
  have tables : TablesFresh c (construct par (some a) (some b)) :=
    tablesFresh_whole c _ (by rw [core_construct]; rfl)
  rw [core_construct]
  exact ⟨reg_initial par c, rfl, rfl, fiqR8_initial par c, nonfiqR8_initial par c, rfl, rfl, rfl, rfl, rfl, rfl, rfl, rfl,
    rfl, rfl, rfl, rfl, rfl, tables⟩

end Sys2Proof.Machine
end

section
/-! PROOFS. The mode switch, field by field (R17): what the swap saves and loads (O27), and that a visit to another bank leaves
the first one's registers alone (O28). -/

namespace Sys2Proof.Machine

/-! The slots of a bank. -/

@[simp] theorem get_set_same_bank (b : Banked) (i : Bank) (v : Word) : (b.set i v).get i = v := by cases i <;> rfl

theorem get_set_ne_bank (b : Banked) {i j : Bank} (v : Word) (h : j ≠ i) : (b.set i v).get j = b.get j := by
  cases i <;> cases j <;> first | rfl | exact absurd rfl h

/-! R8 to R12 as one vector. -/

theorem r8to12_setR8to12 (k : CoreState) (v : Vector Word 5) : (k.setR8to12 v).r8to12 = v := by
  ext n hn
  have : n = 0 ∨ n = 1 ∨ n = 2 ∨ n = 3 ∨ n = 4 := by omega
  rcases this with rfl | rfl | rfl | rfl | rfl <;> simp [CoreState.r8to12, CoreState.setR8to12, reg_setReg]

theorem reg_setR8to12_high (k : CoreState) (v : Vector Word 5) {i : BitVec 4} (h : 12 < i.toNat) :
    (k.setR8to12 v).reg i = k.reg i := by
  have ne : ∀ j : BitVec 4, j.toNat ≤ 12 → i ≠ j := fun j hj e => by subst e; omega
  simp [CoreState.setR8to12, reg_setReg, ne]

/-- The vector holds exactly R8 to R12. -/
theorem reg_of_r8to12 {k l : CoreState} (h : l.r8to12 = k.r8to12) {i : BitVec 4} (h8 : 8 ≤ i) (h12 : i ≤ 12) :
    l.reg i = k.reg i := by
  have e : ∀ n (hn : n < 5), l.r8to12[n] = k.r8to12[n] := fun n hn => by rw [h]
  have : i = 8 ∨ i = 9 ∨ i = 10 ∨ i = 11 ∨ i = 12 := by revert i; decide
  rcases this with rfl | rfl | rfl | rfl | rfl
  · exact e 0 (by decide)
  · exact e 1 (by decide)
  · exact e 2 (by decide)
  · exact e 3 (by decide)
  · exact e 4 (by decide)

/-! The R8 to R12 part of the swap. -/

theorem swapFiq_neither {old new : Bank} (ho : old ≠ .fiq) (hn : new ≠ .fiq) (k : CoreState) : swapFiq old new k = k := by
  simp [swapFiq, ho, hn]

theorem swapFiq_out (new : Bank) (k : CoreState) :
    swapFiq .fiq new k = { k.setR8to12 k.nonfiqR8 with fiqR8 := k.r8to12 } := if_pos rfl

theorem swapFiq_in {old : Bank} (ho : old ≠ .fiq) (k : CoreState) :
    swapFiq old .fiq k = { k.setR8to12 k.fiqR8 with nonfiqR8 := k.r8to12 } := by
  simp [swapFiq, ho]

/-- The R8 to R12 part leaves R13, R14 and their slots. -/
theorem swapFiq_frame (old new : Bank) (k : CoreState) :
    (swapFiq old new k).bankR13 = k.bankR13 ∧ (swapFiq old new k).bankR14 = k.bankR14 ∧
    (swapFiq old new k).reg 13 = k.reg 13 ∧ (swapFiq old new k).reg 14 = k.reg 14 := by
  by_cases ho : old = .fiq
  · subst ho
    rw [swapFiq_out]
    exact ⟨rfl, rfl, reg_setR8to12_high k _ (by decide), reg_setR8to12_high k _ (by decide)⟩
  · by_cases hn : new = .fiq
    · subst hn
      rw [swapFiq_in ho]
      exact ⟨rfl, rfl, reg_setR8to12_high k _ (by decide), reg_setR8to12_high k _ (by decide)⟩
    · rw [swapFiq_neither ho hn]
      exact ⟨rfl, rfl, rfl, rfl⟩

/-! The whole swap, from one bank to another. -/

section
variable {old new : Bank} (h : old ≠ new) (k : CoreState)
include h

theorem swapBanks_ne : swapBanks old new k = swapLow old new (swapFiq old new k) := if_neg h

theorem bankR13_swapBanks : (swapBanks old new k).bankR13 = k.bankR13.set old (k.reg 13) := by
  obtain ⟨h13, -, r13, -⟩ := swapFiq_frame old new k
  rw [swapBanks_ne h, swapLow, ← h13, ← r13]
  rfl

theorem bankR14_swapBanks : (swapBanks old new k).bankR14 = k.bankR14.set old (k.reg 14) := by
  obtain ⟨-, h14, -, r14⟩ := swapFiq_frame old new k
  rw [swapBanks_ne h, swapLow, ← h14, ← r14]
  rfl

theorem reg13_swapBanks : (swapBanks old new k).reg 13 = k.bankR13.get new := by
  obtain ⟨h13, -, -, -⟩ := swapFiq_frame old new k
  rw [swapBanks_ne h, swapLow, reg_setReg_ne _ _ _ _ (by decide), reg_setReg_same, get_set_ne_bank _ _ h.symm, h13]

theorem reg14_swapBanks : (swapBanks old new k).reg 14 = k.bankR14.get new := by
  obtain ⟨-, h14, -, -⟩ := swapFiq_frame old new k
  rw [swapBanks_ne h, swapLow, reg_setReg_same, get_set_ne_bank _ _ h.symm, h14]

theorem fiqR8_swapBanks : (swapBanks old new k).fiqR8 = (swapFiq old new k).fiqR8 := by rw [swapBanks_ne h]; rfl

theorem nonfiqR8_swapBanks : (swapBanks old new k).nonfiqR8 = (swapFiq old new k).nonfiqR8 := by rw [swapBanks_ne h]; rfl

theorem r8to12_swapBanks : (swapBanks old new k).r8to12 = (swapFiq old new k).r8to12 := by
  rw [swapBanks_ne h]
  simp [CoreState.r8to12, swapLow, reg_setReg]
  exact ⟨rfl, rfl, rfl, rfl, rfl⟩

end

/-- Leaving FIQ stores its R8 to R12 and brings the shared ones back (R17). -/
theorem swapBanks_out {new : Bank} (h : new ≠ .fiq) (k : CoreState) :
    (swapBanks .fiq new k).r8to12 = k.nonfiqR8 ∧ (swapBanks .fiq new k).fiqR8 = k.r8to12 := by
  rw [r8to12_swapBanks h.symm, fiqR8_swapBanks h.symm, swapFiq_out]
  exact ⟨r8to12_setR8to12 _ _, rfl⟩

/-- Entering FIQ stores the shared R8 to R12 and brings its own back (R17). -/
theorem swapBanks_in {old : Bank} (h : old ≠ .fiq) (k : CoreState) :
    (swapBanks old .fiq k).r8to12 = k.fiqR8 ∧ (swapBanks old .fiq k).nonfiqR8 = k.r8to12 := by
  rw [r8to12_swapBanks h, nonfiqR8_swapBanks h, swapFiq_in h]
  exact ⟨r8to12_setR8to12 _ _, rfl⟩

/-- Without FIQ on exactly one side R8 to R12 and their stores stay (R17). -/
theorem swapBanks_r8to12_kept {old new : Bank} (h : old = .fiq ↔ new = .fiq) (k : CoreState) :
    (swapBanks old new k).r8to12 = k.r8to12 ∧ (swapBanks old new k).fiqR8 = k.fiqR8 ∧
    (swapBanks old new k).nonfiqR8 = k.nonfiqR8 := by
  by_cases he : old = new
  · subst he
    rw [swapBanks_same]
    exact ⟨rfl, rfl, rfl⟩
  · have ho : old ≠ .fiq := fun ho => he (ho.trans (h.1 ho).symm)
    have hn : new ≠ .fiq := fun hn => ho (h.2 hn)
    rw [r8to12_swapBanks he, fiqR8_swapBanks he, nonfiqR8_swapBanks he, swapFiq_neither ho hn]
    exact ⟨rfl, rfl, rfl⟩

/-! The mode field. -/

/-- Setting the mode field leaves the other bits of the status register. -/
theorem setMode_status (k : CoreState) (m : BitVec 5) : (k.setMode m).cpsr &&& ~~~0x1F = k.cpsr &&& ~~~0x1F := by
  apply BitVec.eq_of_getLsbD_eq
  intro j hj
  have mask : ∀ j < 32, (0xFFFFFFE0 : Word).getLsbD j = (~~~0x1F : Word).getLsbD j ∧
      (j < 5 → (~~~0x1F : Word).getLsbD j = false) := by decide
  obtain ⟨he, hlow⟩ := mask j hj
  simp only [cpsr_setMode, BitVec.getLsbD_and, BitVec.getLsbD_or, BitVec.getLsbD_setWidth, he]
  by_cases h5 : j < 5
  · simp only [hlow h5, Bool.and_false]
  · rw [BitVec.getLsbD_of_ge m j (Nat.le_of_not_lt h5)]
    simp

theorem bank_setMode {m : BitVec 5} {b : Bank} (k : CoreState) (h : bankOf m = some b) : (k.setMode m).bank = b := by
  simp [CoreState.bank, h]

@[simp] theorem bank_setReg (k : CoreState) (i : BitVec 4) (v : Word) : (k.setReg i v).bank = k.bank := rfl

@[simp] theorem r8to12_setMode (k : CoreState) (m : BitVec 5) : (k.setMode m).r8to12 = k.r8to12 := rfl

/-- Settles O27: `swapBanks` field by field, and the mode field set on top. -/
theorem bankSwap : Obligations.BankSwap := by
  intro m new s hb
  obtain ⟨hcpsr, hspsr, hp0, hp1, -⟩ := swapBanks_frame s.cur.bank new s.cur
  refine ⟨_, switchMode_valid hb, ?_⟩
  simp only [StatusKept, PipeKept, State.x, cur_setCur, setCur_branched, mode_setMode, setMode_status,
    reg_setMode, r8to12_setMode, setMode_spsr, setMode_pipe0, setMode_pipe1, setMode_bankR13, setMode_bankR14, setMode_fiqR8,
    setMode_nonfiqR8, hcpsr, true_and, and_true]
  refine ⟨hspsr, ⟨hp0, hp1⟩, fun i hi => reg_swapBanks _ _ _ _ (hi.imp_left fun h => h), fun he => ?_, fun hne => ?_,
    fun ho hn => ?_, fun ho hn => ?_, fun he => swapBanks_r8to12_kept he _⟩
  · rw [he, swapBanks_same]
    exact ⟨fun _ => rfl, rfl, rfl⟩
  · exact ⟨bankR13_swapBanks hne _, reg13_swapBanks hne _, bankR14_swapBanks hne _, reg14_swapBanks hne _⟩
  · rw [ho]
    exact swapBanks_out hn _
  · rw [hn]
    exact swapBanks_in ho _

/-! There and back. -/

/-- The core after a visit to bank `b2` that writes `w` to register `i`, and the way back to `b1`. -/
def CoreState.visit (b1 b2 : Bank) (m2 : BitVec 5) (i : BitVec 4) (w : Word) (k : CoreState) : CoreState :=
  swapBanks b2 b1 (((swapBanks b1 b2 k).setMode m2).setReg i w)

section
variable {b1 b2 : Bank} (h : b1 ≠ b2) (m2 : BitVec 5) (w : Word) (k : CoreState)
include h

/-- R13 survives the visit, and the other bank keeps what it wrote (R18). -/
theorem visit_r13 : (k.visit b1 b2 m2 13 w).reg 13 = k.reg 13 ∧ (k.visit b1 b2 m2 13 w).bankR13.get b2 = w := by
  rw [CoreState.visit, reg13_swapBanks h.symm, bankR13_swapBanks h.symm]
  simp [bankR13_swapBanks h]

/-- R14 likewise (R18). -/
theorem visit_r14 : (k.visit b1 b2 m2 14 w).reg 14 = k.reg 14 ∧ (k.visit b1 b2 m2 14 w).bankR14.get b2 = w := by
  rw [CoreState.visit, reg14_swapBanks h.symm, bankR14_swapBanks h.symm]
  simp [bankR14_swapBanks h]

/-- R8 to R12 survive a visit across FIQ, in either direction (R18). -/
theorem visit_r8to12 (i : BitVec 4) (hf : b1 = .fiq ∨ b2 = .fiq) : (k.visit b1 b2 m2 i w).r8to12 = k.r8to12 := by
  rcases hf with rfl | rfl
  · rw [CoreState.visit, (swapBanks_in h.symm _).1]
    exact (swapBanks_out h.symm k).2
  · rw [CoreState.visit, (swapBanks_out h _).1]
    exact (swapBanks_in h k).2

end

/-- Settles O28: the two switches are `visit` on the executing core. -/
theorem bankIsolation : Obligations.BankIsolation := by
  intro m1 m2 b1 b2 i v w s h1 h2 hne hb hi
  have hbank : (s.setX i v).cur.bank = b1 := by simpa using hb
  let back : CoreState := (s.cur.setReg i v).visit b1 b2 (m2.extractLsb' 0 5) i w
  refine ⟨s.setCur (back.setMode (m1.extractLsb' 0 5)), ?_, ?_⟩
  · rw [switchMode_valid h2, bind_next, switchMode_valid h1, hbank]
    simp only [State.setX, cur_setCur, setCur_setCur, bank_setReg, bank_setMode _ h2]
    rfl
  · simp only [State.x, cur_setCur, reg_setMode, setMode_bankR13, setMode_bankR14]
    have written : (s.cur.setReg i v).reg i = v := reg_setReg_same _ _ _
    rcases hi with rfl | rfl | ⟨h8, h12, hf⟩
    · obtain ⟨hr, hs⟩ := visit_r13 hne (m2.extractLsb' 0 5) w (s.cur.setReg 13 v)
      exact ⟨hr.trans written, fun _ => hs, fun e => absurd e (by decide)⟩
    · obtain ⟨hr, hs⟩ := visit_r14 hne (m2.extractLsb' 0 5) w (s.cur.setReg 14 v)
      exact ⟨hr.trans written, fun e => absurd e (by decide), fun _ => hs⟩
    · have hr := reg_of_r8to12 (visit_r8to12 hne (m2.extractLsb' 0 5) w (s.cur.setReg i v) i hf) h8 h12
      exact ⟨hr.trans written, fun e => absurd h12 (by rw [e]; decide), fun e => absurd h12 (by rw [e]; decide)⟩

end Sys2Proof.Machine
end

section
/-! PROOFS. The SPSR in User and System mode (O30): every rule that reads or writes it asks `readSpsr` first. -/

namespace Sys2Proof.Machine

/-- The mode has no SPSR (R27). -/
def CoreState.NoSpsr (k : CoreState) : Prop := k.mode = 0x10 ∨ k.mode = 0x1F

theorem CoreState.NoSpsr.bank {k : CoreState} (h : k.NoSpsr) : k.bank = .usr := by
  unfold CoreState.bank
  rcases h with h | h <;> rw [h] <;> rfl

theorem readSpsr_noSpsr {s : State} (h : s.cur.NoSpsr) : readSpsr s = .fault (.invalidPsrAccess s.cur.mode) := by
  unfold readSpsr
  rw [h.bank]
  rfl

theorem returnFromException_noSpsr {s : State} (h : s.cur.NoSpsr) (v : Word) :
    returnFromException v s = .fault (.invalidPsrAccess s.cur.mode) := by
  unfold returnFromException
  rw [readSpsr_noSpsr h, bind_fault]

theorem msrSpsr_noSpsr {s : State} (h : s.cur.NoSpsr) (f : BitVec 4) (v : Word) :
    msrSpsr f v s = .fault (.invalidPsrAccess s.cur.mode) := by
  unfold msrSpsr
  rw [readSpsr_noSpsr h, bind_fault]

theorem conditional_passed {cond : BitVec 4} {s : State} (h : condPassed cond s.cur = true) (body : Res State) :
    conditional cond s body = body := if_pos h

/-- The exception return faults also from any state an ordinary change leads to: the mode is the old one (R27). -/
theorem returnFromException_noSpsr_of_ordinary {s u : State} (ho : Ordinary s u) (h : s.cur.NoSpsr) (v : Word) :
    returnFromException v u = .fault (.invalidPsrAccess s.cur.mode) := by
  have hm := mode_of_status ho.status
  rw [← hm]
  exact returnFromException_noSpsr (by unfold CoreState.NoSpsr; rw [hm]; exact h) v

/-- A data-processing instruction with a destination runs as its condition and the write of its result (R200, R210). -/
theorem exec_of_dpValue {i : Instr} {s : State} {h : DpHead} {r : Word} {f : Flags} (e : dpValue i s = some (h, r, f)) :
    exec i s = conditional h.cond s (dpWrite h { result := r, flags := f } s) := by
  cases i with
  | andImm h x | andShiftImm h x | andShiftReg h x | eorImm h x | eorShiftImm h x | eorShiftReg h x | orrImm h x
  | orrShiftImm h x | orrShiftReg h x | movImm h x | movShiftImm h x | movShiftReg h x | bicImm h x
  | bicShiftImm h x | bicShiftReg h x | mvnImm h x | mvnShiftImm h x | mvnShiftReg h x =>
    cases e; rfl
  | addImm h x | addShiftImm h x | addShiftReg h x | adcImm h x | adcShiftImm h x | adcShiftReg h x =>
    cases e; exact congrArg (fun a => conditional h.cond s (dpWrite h a s)) (alu_sum _ _ _)
  | subImm h x | subShiftImm h x | subShiftReg h x | rsbImm h x | rsbShiftImm h x | rsbShiftReg h x | sbcImm h x
  | sbcShiftImm h x | sbcShiftReg h x | rscImm h x | rscShiftImm h x | rscShiftReg h x =>
    cases e; exact congrArg (fun a => conditional h.cond s (dpWrite h a s)) (alu_diff _ _ _)
  | _ => cases e

/-- With S = 1 and R15 as destination the write is the exception return (R212). -/
theorem dpWrite_exceptionReturn {h : DpHead} (hd : h.rd = 15) (hs : h.s = 1) (a : Alu) (s : State) :
    dpWrite h a s = returnFromException a.result s := by
  rw [dpWrite, if_pos hd, if_neg (by rw [hs]; decide)]

/-! LDM in its S form. -/

/-- Without W no base is written back (R295). -/
theorem ldmWriteBack_never {w : BitVec 1} (h : w = 0) (c : CoreId) (rn : BitVec 4) (list : BitVec 16) :
    ldmWriteBack c w rn list = .never := if_pos h

/-- An LDM that writes a base back has W = 1, so by hypothesis another base than R15. -/
theorem base_ne_pc {o : BdtOps} {c : CoreId} (hrn : o.w = 1 → o.rn ≠ 15) {wb : LdmWriteBack} (hwb : wb ≠ .never)
    (h : ldmWriteBack c o.w o.rn o.list = wb) : o.rn ≠ 15 := by
  rcases BitVec.eq_zero_or_eq_one o.w with hw | hw
  · exact absurd (h.symm.trans (ldmWriteBack_never hw _ _ _)) hwb
  · exact hrn hw

/-- A write-back to another register than R15 completes without a jump (R250). -/
theorem writeReg_if_completes {p : Prop} [Decidable p] {i : BitVec 4} (h : p → i ≠ 15) (v : Word) (s : State) :
    ∃ t, (if p then writeReg i v s else .next s) = .next t ∧ Ordinary s t := by
  by_cases hp : p
  · exact ⟨s.setX i v, by rw [if_pos hp, writeReg, if_neg (h hp)], ordinary_setX s i v (h hp)⟩
  · exact ⟨s, if_neg hp, .refl s⟩

/-- An LDM with S = 1 that has loaded R15 faults in User and System mode (R27, R296). -/
theorem loadMultiple_noSpsr {o : BdtOps} {s u : State} {regs : List (BitVec 4)} {n : Nat} {q : List (BitVec 4 × Word)}
    (h : s.cur.NoSpsr) (hs : o.s = 1) (hrn : o.w = 1 → o.rn ≠ 15) (ht : transferRegs s.running o.list = (regs, n))
    (h15 : 15 ∈ regs) (hl : loadList regs (blockStart o.p o.u (s.x o.rn) n) s = .next (q, u)) :
    loadMultiple o s = .fault (.invalidPsrAccess s.cur.mode) := by
  rw [← regs_of_loadList _ _ _ _ _ hl, ← pcOf_isSome] at h15
  obtain ⟨pc, hpc⟩ := Option.isSome_iff_exists.1 h15
  obtain ⟨v, hv, ov⟩ := writeReg_if_completes (base_ne_pc (c := s.running) (wb := .before) hrn (by decide))
    (blockWriteBack o.u (s.x o.rn) n) u
  obtain ⟨w, hw, ow⟩ := writeReg_if_completes (base_ne_pc (c := s.running) (wb := .after) hrn (by decide))
    (blockWriteBack o.u (s.x o.rn) n) (writeList false q v)
  have ho : Ordinary s w :=
    (ordinary_loadList _ _ _ _ _ hl).trans (ov.trans ((ordinary_writeList false q v).trans ow))
  unfold loadMultiple
  simp only [ht, hl, hv, hpc, hs, hw, bind_next, if_true]
  exact returnFromException_noSpsr_of_ordinary ho h pc

/-- Settles O30: each of the six forms reads the SPSR, the LDM forms after an ordinary change. -/
theorem spsrFaults : Obligations.SpsrFaults := by
  intro s h cc hc
  have passed {cond : BitVec 4} (e : cond = cc) (body : Res State) : conditional cond s body = body :=
    conditional_passed (by rw [e]; exact hc) body
  refine ⟨fun o ho hr => ?_, fun o ho => ?_, fun o ho => ?_, fun i d r f hv ho hd hs => ?_,
    fun o vs u ho hs h15 hrn hl => ?_, fun o d u hrun ho hs h0 hrn hl => ?_⟩
  · show execMrs o s = _
    rw [execMrs, passed ho, if_neg (by rw [hr]; decide), readSpsr_noSpsr h, bind_fault]
  · exact (passed ho _).trans (msrSpsr_noSpsr h _ _)
  · exact (passed ho _).trans (msrSpsr_noSpsr h _ _)
  · rw [exec_of_dpValue hv, passed ho, dpWrite_exceptionReturn hd hs, returnFromException_noSpsr h]
  · have hne : o.list ≠ 0 := fun h0 => by rw [h0] at h15; exact absurd h15 (by decide)
    exact (passed ho _).trans (loadMultiple_noSpsr h hs hrn (if_neg hne) ((mem_listRegs o.list 15).2 h15) hl)
  · have ht : transferRegs s.running o.list = ([15], 16) := by rw [hrun, h0]; rfl
    have hload : loadList [15] (blockStart o.p o.u (s.x o.rn) 16) s = .next ([(15, d)], u) := by
      rw [loadList, load, hrun, hl]; rfl
    exact (passed ho _).trans (loadMultiple_noSpsr h hs hrn ht (List.mem_singleton_self 15) hload)

end Sys2Proof.Machine
end

section
/-! PROOFS. The bytes of a wide access (R72 to R75): a read is the sum of its bytes (O18), and inside a write it gives back those
of the value written (O17). -/

namespace Sys2Proof.Machine

theorem toNat_append_eq_add {m n : Nat} (x : BitVec m) (y : BitVec n) : (x ++ y).toNat = 2 ^ n * x.toNat + y.toNat := by
  rw [BitVec.toNat_append, ← Nat.shiftLeft_add_eq_or_of_lt y.isLt, Nat.shiftLeft_eq, Nat.mul_comm]

/-- The value a read gives is its bytes in base 256, the lowest address first (R72, R74). -/
theorem toNat_readBytes (m : List Host.Cell) (o : Nat) (w : Width) :
    (readBytes m o w).toNat = ∑ i ∈ Finset.range (widthBytes w), 256 ^ i * (Memory.get m (o + i)).toNat := by
  have b0 := (Memory.get m o).isLt
  have b1 := (Memory.get m (o + 1)).isLt
  cases w <;>
    simp only [readBytes, widthBytes, Finset.sum_range_succ, Finset.sum_range_zero, BitVec.toNat_setWidth,
      toNat_append_eq_add, Nat.add_zero] <;>
    omega

theorem toNat_byteOf (v : Word) (i : Nat) : (byteOf v i).toNat = v.toNat / 256 ^ i % 256 := by
  rw [byteOf, BitVec.extractLsb'_toNat, Nat.shiftRight_eq_div_pow, Nat.pow_mul]

/-- A value cut to a width is what its low bytes hold. -/
theorem toNat_truncate (w : Width) (v : Word) : (truncate w v).toNat = v.toNat % 256 ^ widthBytes w := by
  cases w
  · exact Nat.and_two_pow_sub_one_eq_mod v.toNat 8
  · exact Nat.and_two_pow_sub_one_eq_mod v.toNat 16
  · exact (Nat.mod_eq_of_lt v.isLt).symm

/-- The lowest `n` digits of a number in base 256 make up its residue. -/
theorem sum_digits_eq_mod (x n : Nat) : ∑ i ∈ Finset.range n, 256 ^ i * (x / 256 ^ i % 256) = x % 256 ^ n := by
  induction n with
  | zero => simp [Nat.mod_one]
  | succ n ih => rw [Finset.sum_range_succ, ih, Nat.mod_pow_succ]

/-- A read of bytes `k` on of a value gives the value from byte `k` on, cut to the width. -/
theorem toNat_readBytes_of_byteOf {m : List Host.Cell} {o k : Nat} {w : Width} {v : Word}
    (h : ∀ i < widthBytes w, Memory.get m (o + i) = byteOf v (k + i)) :
    (readBytes m o w).toNat = v.toNat / 256 ^ k % 256 ^ widthBytes w := by
  rw [toNat_readBytes, ← sum_digits_eq_mod]
  refine Finset.sum_congr rfl fun i hi => ?_
  rw [h i (Finset.mem_range.1 hi), toNat_byteOf, Nat.pow_add, Nat.div_div_eq_div_mul]

/-- A read inside the bytes of a write, `k` bytes on (R72 to R74). -/
theorem toNat_readBytes_writeBytes {m : List Host.Cell} (hm : Memory.wf m) (o : Nat) {k : Nat} {w u : Width} (v : Word)
    (h : k + widthBytes u ≤ widthBytes w) :
    (readBytes (writeBytes m o w v) (o + k) u).toNat = v.toNat / 256 ^ k % 256 ^ widthBytes u := by
  refine toNat_readBytes_of_byteOf fun i hi => ?_
  rw [Nat.add_assoc]
  exact get_writeBytes_inside m o (k + i) w v hm (by omega)

/-- A read of what was written gives it back, cut to the width (R72, R73). -/
theorem readBytes_writeBytes_same {m : List Host.Cell} (hm : Memory.wf m) (o : Nat) (w : Width) (v : Word) :
    readBytes (writeBytes m o w v) o w = truncate w v := by
  apply BitVec.eq_of_toNat_eq
  rw [toNat_truncate]
  simpa using toNat_readBytes_writeBytes hm o (k := 0) (u := w) v (by omega)

/-- Settles O18: the sum of a read's bytes, and the narrower reads inside a stored word. -/
theorem littleEndian : Obligations.LittleEndian := by
  refine ⟨fun m o => ⟨?_, ?_, ?_⟩, fun m o v hm => ?_⟩
  · simp [toNat_readBytes, widthBytes]
  · simp [toNat_readBytes, widthBytes, Finset.sum_range_succ]
  · simp [toNat_readBytes, widthBytes, Finset.sum_range_succ]
  · have inside (k : Nat) (u : Width) (h : k + widthBytes u ≤ 4) :=
      toNat_readBytes_writeBytes hm o (w := .w32) v h
    refine ⟨?_, inside 1 .w8 (by decide), ?_, ?_, readBytes_writeBytes_same hm o .w32 v⟩
    · simpa [widthBytes] using inside 0 .w8 (by decide)
    · simpa [widthBytes] using inside 0 .w16 (by decide)
    · rw [inside 2 .w16 (by decide)]
      exact Nat.mod_eq_of_lt (Nat.div_lt_of_lt_mul v.isLt)

/-! Accesses that land in a buffer. -/

theorem memRead_buffer {c : CoreId} {a : Word} {w : Width} {s : State} {b : Buf} {o : Nat}
    (h : locate c (alignDown a w) .read s = .buffer b o) :
    memRead c a w s = .next (readBytes (s.buf.cells b) o w, s) :=
  memRead_plain (by rw [plainRead, h])

/-- A write to a buffer, then a read that reaches its bytes, by the same core or the other (R72, R73, R110). -/
theorem memWrite_then_memRead {c c' : CoreId} {a : Word} {w : Width} {s : State} {b : Buf} {o : Nat} (hs : s.buf.wf)
    (hw : locate c (alignDown a w) .write s = .buffer b o) (hr : locate c' (alignDown a w) .read s = .buffer b o)
    (v : Word) :
    ∃ t, memWrite c a w v s = .next t ∧ memRead c' a w t = .next (truncate w v, t) ∧ StoredAt b o w v s t ∧
      t = { s with buf := t.buf } := by
  refine ⟨_, memWrite_buffer hw, ?_, storedAt_setCells s b o w v hs, rfl⟩
  have hr' : locate c' (alignDown a w) .read (s.setCells b (writeBytes (s.buf.cells b) o w v)) = .buffer b o :=
    (locate_congr (by simp) rfl rfl).trans hr
  rw [memRead_buffer hr', State.setCells, cells_setCells_same, readBytes_writeBytes_same (wf_cells _ hs b)]

/-- Settles O17: the case of one core. -/
theorem writeThenRead : Obligations.WriteThenRead :=
  fun _ _ _ v _ _ _ hs hw hr => memWrite_then_memRead hs hw hr v

end Sys2Proof.Machine
end

section
/-! PROOFS. Where `Resolve` sends an address: the TCMs first (O20), then the region table; the tables after a rebuild agree with it
(O19). -/

namespace Sys2Proof.Machine

/-! The tightly-coupled memories (R38, R88). -/

section
variable {par : Parameters} {ctl : RegionControl} {a : Word} {d : Dir}

theorem resolve_itcm (h : itcmEnabled ctl d = true ∧ a.toNat < tcmWindow ctl.cp15Itcm) :
    resolve par ctl .a9 a d = .buffer .itcm (a.toNat % Params.itcmSize) := if_pos h

theorem resolve_dtcm (hi : ¬(itcmEnabled ctl d = true ∧ a.toNat < tcmWindow ctl.cp15Itcm))
    (hd : dtcmEnabled ctl d = true ∧ dtcmBase ctl ≤ a.toNat ∧ a.toNat < dtcmBase ctl + tcmWindow ctl.cp15Dtcm) :
    resolve par ctl .a9 a d = .buffer .dtcm ((a.toNat - dtcmBase ctl) % Params.dtcmSize) :=
  (if_neg hi).trans (if_pos hd)

theorem resolve_outside_tcm (hi : ¬(itcmEnabled ctl d = true ∧ a.toNat < tcmWindow ctl.cp15Itcm))
    (hd : ¬(dtcmEnabled ctl d = true ∧ dtcmBase ctl ≤ a.toNat ∧ a.toNat < dtcmBase ctl + tcmWindow ctl.cp15Dtcm)) :
    resolve par ctl .a9 a d = regionAt par ctl .a9 a.toNat d :=
  (if_neg hi).trans (if_neg hd)

end

/-- Settles O20: one equation per branch of `Resolve`. -/
theorem tcmPriority : Obligations.TcmPriority :=
  fun _ _ _ _ => ⟨resolve_itcm, resolve_dtcm, resolve_outside_tcm, rfl⟩

theorem itcmEnabled_off {ctl : RegionControl} (h : ctl.controlBit 18 = false) (d : Dir) : itcmEnabled ctl d = false := by
  cases d <;> simp [itcmEnabled, h]

theorem dtcmEnabled_off {ctl : RegionControl} (h : ctl.controlBit 16 = false) (d : Dir) : dtcmEnabled ctl d = false := by
  cases d <;> simp [dtcmEnabled, h]

/-- Without TCMs the region table decides, on either core (R88). -/
theorem resolve_without_tcm {ctl : RegionControl} {c : CoreId}
    (h : c = .a9 → ctl.controlBit 16 = false ∧ ctl.controlBit 18 = false) (par : Parameters) (a : Word) (d : Dir) :
    resolve par ctl c a d = regionAt par ctl c a.toNat d := by
  cases c with
  | a7 => rfl
  | a9 =>
    obtain ⟨hd, hi⟩ := h rfl
    exact resolve_outside_tcm (by simp [itcmEnabled_off hi]) (by simp [dtcmEnabled_off hd])

/-! The region tables (R84). -/

/-- In a table in ascending order the row that holds an address is the one found. -/
theorem findRegion_of_mem {rs : List Region} (hs : rs.Pairwise fun x y => x.high ≤ y.low) {r : Region} (hr : r ∈ rs) {a : Nat}
    (hl : r.low ≤ a) (hh : a < r.high) : findRegion rs a = some r := by
  induction rs with
  | nil => exact absurd hr List.not_mem_nil
  | cons x rest ih =>
    obtain ⟨hx, hrest⟩ := List.pairwise_cons.1 hs
    unfold findRegion at ih ⊢
    rcases List.mem_cons.1 hr with rfl | hr
    · exact List.find?_cons_of_pos (by simp [hl, hh])
    · have := hx r hr
      rw [List.find?_cons_of_neg (by simp; omega)]
      exact ih hrest hr

/-- The default tables are in ascending order. -/
theorem defaultRegions_ascending (c : CoreId) :
    (Parameters.default.regions.get c).Pairwise fun x y => x.high ≤ y.low := by
  cases c <;> decide

/-- An address in a row of the default tables goes where that row sends it. -/
theorem regionAt_default {par : Parameters} (hp : par.regions = Parameters.default.regions) {c : CoreId} {r : Region}
    (hr : r ∈ Parameters.default.regions.get c) {a : Nat} (hl : r.low ≤ a) (hh : a < r.high) (ctl : RegionControl) (d : Dir) :
    regionAt par ctl c a d = r.kind.target par ctl c a d := by
  rw [regionAt, hp, findRegion_of_mem (defaultRegions_ascending c) hr hl hh]

/-! The page tables (R90 to R92). -/

/-- A table entry for the page of an address agrees with `Resolve` under the region control it was made from. -/
theorem pageEntry_resolve {par : Parameters} {ctl : RegionControl} {c : CoreId} {a : Word} {d : Dir} {b : Buf} {o : Nat}
    (h : pageEntry par ctl c (a.toNat / par.pageSize) d = some (b, o)) :
    resolve par ctl c a d = .buffer b (o + a.toNat % par.pageSize) := by
  have := pageEntry_uniform par ctl c _ d b o (a.toNat % par.pageSize) h (Nat.mod_lt _ (Nat.two_pow_pos _))
  rwa [Nat.div_add_mod'] at this

/-- The newest rebuild that covers a page gives it its entry. -/
theorem tableEntry_cons {x : Rebuild} {p : Nat} (hl : x.low ≤ p) (hh : p < x.high) (par : Parameters) (rest : List Rebuild)
    (c : CoreId) (d : Dir) : tableEntry par (x :: rest) c p d = pageEntry par x.ctl c p d := by
  rw [tableEntry, List.find?_cons_of_pos (by simp [hl, hh])]

/-- A rebuild of at least one page stands first in the table. -/
theorem rebuild_eq_cons {par : Parameters} {low high : Nat}
    (h : low / par.pageSize < min ((high + par.pageSize - 1) / par.pageSize) par.pageCount) (t : List Rebuild)
    (ctl : RegionControl) : ∃ rest, rebuild par t ctl low high =
      { low := low / par.pageSize, high := min ((high + par.pageSize - 1) / par.pageSize) par.pageCount, ctl := ctl } ::
        rest := by
  rw [rebuild, if_neg (Nat.not_le.2 h)]
  split
  · exact ⟨[], rfl⟩
  · exact ⟨t, rfl⟩

/-- After a rebuild a page it covers has the entry that the region control asks for (R90, R91). -/
theorem tableEntry_rebuild {par : Parameters} {low high p : Nat} (hl : low / par.pageSize ≤ p)
    (hh : p < (high + par.pageSize - 1) / par.pageSize) (hp : p < par.pageCount) (t : List Rebuild) (ctl : RegionControl)
    (c : CoreId) (d : Dir) : tableEntry par (rebuild par t ctl low high) c p d = pageEntry par ctl c p d := by
  have hi := Nat.lt_min.2 ⟨hh, hp⟩
  obtain ⟨rest, e⟩ := rebuild_eq_cons (Nat.lt_of_le_of_lt hl hi) t ctl
  rw [e]
  exact tableEntry_cons hl hi par rest c d

/-- After `update_memory_map` an address of a page it covers goes where `Resolve` sends it (R90, R92). -/
theorem locate_updateMemoryMap (c : CoreId) (low high : Nat) (s : State) (a : Word) (d : Dir)
    (hl : low / s.par.pageSize ≤ a.toNat / s.par.pageSize)
    (hh : a.toNat / s.par.pageSize < (high + s.par.pageSize - 1) / s.par.pageSize) :
    locate c a d (updateMemoryMap c low high s) = resolve s.par s.ctl c a d := by
  simp only [locate, updateMemoryMap, setCore_par, setCore_ctl, core_setCore_same,
    tableEntry_rebuild hl hh (page_lt s.par a)]
  split
  · next h => exact (pageEntry_resolve h).symm
  · rfl

/-- The default first page of core A7 lies in its boot ROM for reads (R81). -/
theorem pageEntry_boot_read (ctl : RegionControl) : pageEntry .default ctl .a7 0 .read = some (.biosA7, 0) := by
  refine pageEntry_complete _ _ _ _ _ _ _ fun k hk => ?_
  have hk : k < 0x1000 := hk
  simp only [Nat.zero_mul, Nat.zero_add]
  refine (regionAt_default rfl List.mem_cons_self (Nat.zero_le k) ?_ ctl .read).trans ?_
  · show k < 0x01000000; omega
  · exact if_pos ⟨Nat.zero_le k, show k < 0 + 0x4000 by omega⟩

/-- Settles O19: every page the range touches has a new entry, whose bytes go where `Resolve` sends them. -/
theorem rebuildAgrees : Obligations.RebuildAgrees := by
  refine ⟨fun c low high s a d _ hl hh => ?_, fun s hp => ?_⟩
  · have hpos : 0 < s.par.pageSize := Nat.two_pow_pos _
    exact locate_updateMemoryMap c low high s a d ((Nat.le_div_iff_mul_le hpos).2 hl) ((Nat.div_lt_iff_lt_mul hpos).2 hh)
  · have entry (d : Dir) :
        tableEntry .default (rebuild .default s.a7.pageTable s.ctl 0 (2 ^ 32)) .a7 0 d = pageEntry .default s.ctl .a7 0 d :=
      tableEntry_rebuild (by decide) (by decide) (by decide) _ _ _ _
    simp only [updateMemoryMap, State.setCore, State.core, hp]
    exact ⟨(entry .read).trans (pageEntry_boot_read s.ctl), (entry .write).trans rfl⟩

end Sys2Proof.Machine
end

section
/-! PROOFS. The default regions: main RAM is one for both cores (O21), the boot ROMs and the cartridge slot ignore writes (O23). -/

namespace Sys2Proof.Machine

/-! Aligned addresses (R72). -/

/-- Clearing the lowest `k` bits rounds down to a multiple of `2 ^ k`. -/
theorem toNat_and_highBits (a : Word) (k : Nat) : (a &&& (BitVec.allOnes 32 <<< k)).toNat = a.toNat / 2 ^ k * 2 ^ k := by
  have e : a &&& (BitVec.allOnes 32 <<< k) = a >>> k <<< k := by
    refine BitVec.eq_of_getLsbD_eq fun j hj => ?_
    simp only [BitVec.getLsbD_and, BitVec.getLsbD_shiftLeft, BitVec.getLsbD_allOnes, BitVec.getLsbD_ushiftRight]
    by_cases hk : j < k
    · simp [hk]
    · simp [hk, hj, show k + (j - k) = j by omega, show j - k < 32 by omega]
  rw [e, BitVec.toNat_shiftLeft, BitVec.toNat_ushiftRight, Nat.shiftLeft_eq, Nat.shiftRight_eq_div_pow]
  exact Nat.mod_eq_of_lt (Nat.lt_of_le_of_lt (Nat.div_mul_le_self _ _) a.isLt)

theorem toNat_alignDown (a : Word) (w : Width) : (alignDown a w).toNat = a.toNat / widthBytes w * widthBytes w := by
  cases w
  · simp [alignDown, widthBytes]
  · exact toNat_and_highBits a 1
  · exact toNat_and_highBits a 2

theorem alignDown_le (a : Word) (w : Width) : (alignDown a w).toNat ≤ a.toNat := by
  rw [toNat_alignDown]
  exact Nat.div_mul_le_self _ _

/-- Aligning does not cross a bound that is a multiple of a word. -/
theorem le_alignDown {n : Nat} (hn : 4 ∣ n) {a : Word} (w : Width) (h : n ≤ a.toNat) : n ≤ (alignDown a w).toNat := by
  have hw : widthBytes w ∣ n := Nat.dvd_trans (by cases w <;> decide) hn
  rw [toNat_alignDown]
  calc n = n / widthBytes w * widthBytes w := (Nat.div_mul_cancel hw).symm
    _ ≤ a.toNat / widthBytes w * widthBytes w := Nat.mul_le_mul_right _ (Nat.div_le_div_right h)

/-- The addresses whose top byte is `k`, and the aligned one. -/
theorem alignDown_of_topByte {a : Word} {k : Nat} (h : a.toNat / 2 ^ 24 = k) (w : Width) :
    k * 2 ^ 24 ≤ (alignDown a w).toNat ∧ (alignDown a w).toNat < (k + 1) * 2 ^ 24 := by
  have := alignDown_le a w
  exact ⟨le_alignDown (Nat.dvd_mul_left_of_dvd (by decide) k) w (by omega), by omega⟩

/-! Accesses that reach a region. -/

/-- With fresh tables, the default regions and no TCM, an address in a row goes where the row sends it. -/
theorem locate_default {c : CoreId} {s : State} (ht : TablesFresh c s) (hp : s.par.regions = Parameters.default.regions)
    (htcm : c = .a9 → s.ctl.controlBit 16 = false ∧ s.ctl.controlBit 18 = false) {r : Region}
    (hr : r ∈ Parameters.default.regions.get c) {a : Word} (hl : r.low ≤ a.toNat) (hh : a.toNat < r.high) (d : Dir) :
    locate c a d s = r.kind.target s.par s.ctl c a.toNat d := by
  rw [ht, resolve_without_tcm htcm, regionAt_default hp hr hl hh]

theorem memRead_fixed {c : CoreId} {a : Word} {w : Width} {s : State} {v : Word}
    (h : locate c (alignDown a w) .read s = .fixed v) : memRead c a w s = .next (truncate w v, s) :=
  memRead_plain (by rw [plainRead, h])

/-- Main RAM's row, the same for both cores (R84). -/
def mainRamRow : Region :=
  { low := 0x02000000, high := 0x03000000, kind := .ram { buf := .mainRam, offset := 0, size := 0x400000 } }

theorem locate_mainRam {c : CoreId} {s : State} (ht : TablesFresh c s) (hp : s.par.regions = Parameters.default.regions)
    (htcm : c = .a9 → s.ctl.controlBit 16 = false ∧ s.ctl.controlBit 18 = false) {a : Word} (h : a.toNat / 2 ^ 24 = 2)
    (w : Width) (d : Dir) : locate c (alignDown a w) d s = .buffer .mainRam ((alignDown a w).toNat % 0x400000) := by
  obtain ⟨hl, hh⟩ := alignDown_of_topByte h w
  have hr : mainRamRow ∈ Parameters.default.regions.get c := by cases c <;> decide
  rw [locate_default ht hp htcm hr hl hh]
  exact congrArg (Target.buffer .mainRam) (Nat.zero_add _)

/-- Settles O21: both cores' view of the address is the same byte of main RAM. -/
theorem sharedMainRam : Obligations.SharedMainRam := by
  intro c c' a w v s hs h hp ht h16 h18
  have view (e : CoreId) (d : Dir) := locate_mainRam (ht e) hp (fun _ => ⟨h16, h18⟩) h w d
  obtain ⟨t, hw, hr, hst, -⟩ := memWrite_then_memRead hs (view c .write) (view c' .read) v
  exact ⟨t, hw, hr, hst⟩

/-- The top byte of the addresses of a core's boot ROM region (R81). -/
def biosTop : CoreId → Nat
  | .a7 => 0x00
  | .a9 => 0xFF

/-- The address of the first byte of a core's boot ROM (R81). -/
def biosBase : CoreId → Nat
  | .a7 => 0
  | .a9 => 0xFFFF0000

/-- A core's boot ROM row (R84). -/
def biosRow (c : CoreId) : Region :=
  { low := biosTop c * 2 ^ 24, high := (biosTop c + 1) * 2 ^ 24, kind := .bios (biosBase c) }

/-- The cartridge slot's row, the same for both cores (R84). -/
def cartridgeRow : Region := { low := 0x08000000, high := 0x0B000000, kind := .cartridge }

theorem biosRow_mem (c : CoreId) : biosRow c ∈ Parameters.default.regions.get c := by cases c <;> decide

theorem cartridgeRow_mem (c : CoreId) : cartridgeRow ∈ Parameters.default.regions.get c := by cases c <;> decide

theorem truncate_zero (w : Width) : truncate w 0 = 0 := by cases w <;> rfl

/-- The core that owns the slot reads the open bus, the other 0 (R86). -/
theorem cartridgeSlot_read (v : Word) (ctl : RegionControl) (c : CoreId) :
    cartridgeSlot v ctl c .read = .fixed (if c = .a9 ↔ ctl.cartOwner = 0 then v else 0) := by
  rcases BitVec.eq_zero_or_eq_one ctl.cartOwner with h | h <;> cases c <;> simp [cartridgeSlot, h]

section
variable {c : CoreId} {s : State} (ht : TablesFresh c s) (hp : s.par.regions = Parameters.default.regions)
  (htcm : c = .a9 → s.ctl.controlBit 16 = false ∧ s.ctl.controlBit 18 = false) {a : Word}
include ht hp htcm

/-- A write to the boot ROM region does nothing (R81). -/
theorem memWrite_bios (h : a.toNat / 2 ^ 24 = biosTop c) (w : Width) (v : Word) : memWrite c a w v s = .next s := by
  obtain ⟨hl, hh⟩ := alignDown_of_topByte h w
  exact memWrite_ignore (locate_default ht hp htcm (biosRow_mem c) hl hh .write)

/-- A read inside the boot ROM gives its bytes (R81). -/
theorem memRead_bios (hl : biosBase c ≤ a.toNat) (hh : a.toNat < biosBase c + s.par.biosSize.get c)
    (h : a.toNat / 2 ^ 24 = biosTop c) (w : Width) :
    memRead c a w s =
      .next (readBytes (s.buf.cells (biosBuf c)) ((alignDown a w).toNat - biosBase c) w, s) := by
  obtain ⟨hlow, hhigh⟩ := alignDown_of_topByte h w
  have hbase : biosBase c ≤ (alignDown a w).toNat := le_alignDown (by cases c <;> decide) w hl
  refine memRead_buffer ((locate_default ht hp htcm (biosRow_mem c) hlow hhigh .read).trans ?_)
  exact if_pos ⟨hbase, Nat.lt_of_le_of_lt (alignDown_le a w) hh⟩

/-- An aligned address of the cartridge slot. -/
theorem locate_cartridge (hl : 0x08 ≤ a.toNat / 2 ^ 24) (hh : a.toNat / 2 ^ 24 ≤ 0x0A) (w : Width) (d : Dir) :
    locate c (alignDown a w) d s = cartridgeSlot s.par.openBus s.ctl c d := by
  obtain ⟨hlow, hhigh⟩ := alignDown_of_topByte (a := a) rfl w
  refine locate_default ht hp htcm (cartridgeRow_mem c) (Nat.le_trans ?_ hlow) (Nat.lt_of_lt_of_le hhigh ?_) d
  · exact Nat.mul_le_mul_right (2 ^ 24) hl
  · exact Nat.mul_le_mul_right (2 ^ 24) (Nat.succ_le_succ hh)

end

/-- Settles O23: the rows of the boot ROMs and of the cartridge slot. -/
theorem readOnlyRegions : Obligations.ReadOnlyRegions := by
  intro c a w v s ht hp htcm
  refine ⟨fun h => memWrite_bios ht hp htcm (h.trans (by cases c <;> rfl)) w v, ?_, ?_, fun hl hh => ⟨?_, ?_⟩⟩
  · rintro rfl h hsize
    exact memRead_bios ht hp htcm (Nat.zero_le _) (by simpa [biosBase] using hsize) h w
  · rintro rfl hl hh
    have := a.isLt
    exact memRead_bios ht hp htcm hl hh (show a.toNat / 2 ^ 24 = 0xFF by omega) w
  · exact memWrite_ignore (locate_cartridge ht hp htcm hl hh w .write)
  · rw [memRead_fixed ((locate_cartridge ht hp htcm hl hh w .read).trans (cartridgeSlot_read _ _ _)), apply_ite (truncate w),
      truncate_zero]

end Sys2Proof.Machine
end

section
/-! PROOFS. The register window: faults of unmapped and unregistered accesses (O22), registered handlers (O24). -/

namespace Sys2Proof.Machine

/-! What an access does where it reaches nothing, and in the register window. -/

section
variable {c : CoreId} {a : Word} {w : Width} {s : State}

theorem memRead_unmapped (h : locate c (alignDown a w) .read s = .unmapped) :
    memRead c a w s = .fault (.unimplementedAccess c (alignDown a w) w .read) := by
  simp only [memRead, readWith, h]

theorem memWrite_unmapped (h : locate c (alignDown a w) .write s = .unmapped) (v : Word) :
    memWrite c a w v s = .fault (.unimplementedAccess c (alignDown a w) w .write) := by
  simp only [memWrite, writeWith, h]

theorem memRead_mmio (h : locate c (alignDown a w) .read s = .mmio) :
    memRead c a w s = mmioRead (scriptAt s.par.nesting) c (alignDown a w) w s := by
  simp only [memRead, readWith, h]

theorem memWrite_mmio (h : locate c (alignDown a w) .write s = .mmio) (v : Word) :
    memWrite c a w v s = mmioWrite (scriptAt s.par.nesting) c (alignDown a w) w (truncate w v) s := by
  simp only [memWrite, writeWith, h]

end

section
variable {script : Dword → Script → State → Res State} {c : CoreId} {a : Word} {w : Width} {s : State}

theorem mmioRead_unregistered (h : findMmio (s.core c).mmio a w = none) :
    mmioRead script c a w s = .fault (.unimplementedAccess c a w .read) := by
  rw [mmioRead, h]

theorem mmioWrite_unregistered (h : findMmio (s.core c).mmio a w = none) (v : Word) :
    mmioWrite script c a w v s = .fault (.unimplementedAccess c a w .write) := by
  rw [mmioWrite, h]

variable {r : Registration} (h : findMmio (s.core c).mmio a w = some r)
include h

theorem mmioRead_direct {f : Nat} (hr : r.read = .direct f) :
    mmioRead script c a w s = .next (truncate w ((s.field f).setWidth 32), s) := by
  simp only [mmioRead, h, hr]

theorem mmioRead_stub {x : Word} (hr : r.read = .stub x) : mmioRead script c a w s = .next (truncate w x, s) := by
  simp only [mmioRead, h, hr]

theorem mmioWrite_direct {f : Nat} {m : Word} (hr : r.write = .direct f m) (v : Word) :
    mmioWrite script c a w v s =
      .next (s.setField f ((s.field f &&& ~~~(m.setWidth 64)) ||| ((v &&& m).setWidth 64))) := by
  simp only [mmioWrite, h, hr]

theorem mmioWrite_stub (hr : r.write = .stub) (v : Word) : mmioWrite script c a w v s = .next s := by
  simp only [mmioWrite, h, hr]

end

/-! The registry (R95, R96). -/

theorem findMmio_eq_none_iff {m : List Registration} {a : Word} {w : Width} :
    findMmio m a w = none ↔ ∀ e ∈ m, ¬(e.addr = a ∧ e.width = w) := by
  simp [findMmio]

/-- Settles O22: unmapped, or no registration under the key. -/
theorem accessFaults : Obligations.AccessFaults := by
  refine fun c a w v s => ⟨memRead_unmapped, fun h => memWrite_unmapped h v, fun hm => ?_⟩
  have hnone : findMmio (s.core c).mmio (alignDown a w) w = none := findMmio_eq_none_iff.2 hm
  exact ⟨fun h => (memRead_mmio h).trans (mmioRead_unregistered hnone),
    fun h => (memWrite_mmio h v).trans (mmioWrite_unregistered hnone _)⟩

theorem mmio_registerMmio (c : CoreId) (r : Registration) (s : State) :
    ((registerMmio c r s).core c).mmio = r :: (s.core c).mmio.filter fun e => !(e.addr == r.addr && e.width == r.width) := by
  simp [registerMmio]

/-- The pair just registered is the one under its key (R96). -/
theorem findMmio_registerMmio_same (c : CoreId) (r : Registration) (s : State) :
    findMmio ((registerMmio c r s).core c).mmio r.addr r.width = some r := by
  rw [mmio_registerMmio]
  exact List.find?_cons_of_pos (by simp)

/-- A registration leaves the pair under every other key of its core. -/
theorem findMmio_registerMmio_ne (c : CoreId) (r : Registration) (s : State) {a : Word} {w : Width}
    (h : a ≠ r.addr ∨ w ≠ r.width) :
    findMmio ((registerMmio c r s).core c).mmio a w = findMmio (s.core c).mmio a w := by
  rw [mmio_registerMmio, findMmio, findMmio, List.find?_cons_of_neg, List.find?_filter]
  · congr 1
    funext e
    by_cases he : e.addr = a ∧ e.width = w
    · obtain ⟨rfl, rfl⟩ := he
      simpa [← not_and_or] using h
    · have : (e.addr == a && e.width == w) = false := by simpa using he
      simp [this]
  · rw [Bool.and_eq_true, beq_iff_eq, beq_iff_eq]
    exact fun ⟨h1, h2⟩ => h.elim (· h1.symm) (· h2.symm)

/-- Settles O24: the pair under its key answers, and every other key is as it was. -/
theorem mmioHandlers : Obligations.MmioHandlers := by
  refine fun c r s => ⟨fun a ha hloc => ?_, fun c' a' w' hne => ?_⟩
  · have found := findMmio_registerMmio_same c r s
    rw [← ha] at found hloc
    exact ⟨fun f hr => (memRead_mmio (hloc .read)).trans (mmioRead_direct found hr),
      fun f m v hw => (memWrite_mmio (hloc .write) v).trans (mmioWrite_direct found hw _),
      fun x hr => (memRead_mmio (hloc .read)).trans (mmioRead_stub found hr),
      fun v hw => (memWrite_mmio (hloc .write) v).trans (mmioWrite_stub found hw _)⟩
  · by_cases hc : c' = c
    · subst hc
      exact findMmio_registerMmio_ne c' r s (hne.resolve_left (not_not_intro rfl))
    · rw [registerMmio, core_setCore_ne s c c' _ hc]

end Sys2Proof.Machine
end

section
/-! PROOFS. Decoding the encoding (O1): fields of a word put together from its fields, where a word is decoded, and the rows of
each format. -/

namespace Sys2Proof

/-! Fields of words. In `x ++ y` a field lies in `x`, in `y`, or across both. The result type of `++` is not indexed, so that
`simp` finds these equations at words whose width is written as one number. -/

section
variable {m n s l : Nat}

@[simp] theorem extract_append_above {x : BitVec m} {y : BitVec n} (h : n ≤ s) :
    (HAppend.hAppend (γ := no_index (BitVec (m + n))) x y).extractLsb' s l = x.extractLsb' (s - n) l :=
  BitVec.extractLsb'_append_eq_of_le h

@[simp] theorem extract_append_below {x : BitVec m} {y : BitVec n} (h : s + l ≤ n) :
    (HAppend.hAppend (γ := no_index (BitVec (m + n))) x y).extractLsb' s l = y.extractLsb' s l :=
  BitVec.extractLsb'_append_eq_of_add_le h

theorem extract_extract {a b : Nat} (w : BitVec n) (h : a + b ≤ l) :
    (w.extractLsb' s l).extractLsb' a b = w.extractLsb' (s + a) b := by
  refine BitVec.eq_of_getLsbD_eq fun i hi => ?_
  simp only [BitVec.getLsbD_extractLsb', hi, decide_true, Bool.true_and, show a + i < l by omega, Nat.add_assoc]

/-- A field inside a field whose value is known. -/
theorem extract_within {w : BitVec n} {k : BitVec l} (hk : w.extractLsb' s l = k) (a b : Nat) (h : a + b ≤ l) :
    w.extractLsb' (s + a) b = k.extractLsb' a b := by
  rw [← hk, extract_extract w h]

/-- Two adjacent fields are one. -/
theorem extract_append_extract {s' l' : Nat} {w : BitVec n} (h : s' = s + l) :
    HAppend.hAppend (γ := no_index (BitVec (l' + l))) (w.extractLsb' s' l') (w.extractLsb' s l) = w.extractLsb' s (l' + l) :=
  BitVec.extractLsb'_append_extractLsb'_eq_extractLsb' h

/-- A field has a value if its two parts have theirs. -/
theorem extract_eq_iff {w : BitVec n} {k : BitVec l} (a : Nat) (h : a ≤ l) :
    w.extractLsb' s l = k ↔
      w.extractLsb' (s + a) (l - a) = k.extractLsb' a (l - a) ∧ w.extractLsb' s a = k.extractLsb' 0 a := by
  refine ⟨fun hk => ⟨extract_within hk a (l - a) (by omega), extract_within hk 0 a (by omega)⟩, fun ⟨hhigh, hlow⟩ => ?_⟩
  refine BitVec.eq_of_getLsbD_eq fun i hi => ?_
  by_cases hia : i < a
  · simpa [hi, hia] using congrArg (·.getLsbD i) hlow
  · simpa [hi, show i - a < l - a by omega, show s + a + (i - a) = s + i by omega, show a + (i - a) = i by omega]
      using congrArg (·.getLsbD (i - a)) hhigh

@[simp] theorem extract_append_across {x : BitVec m} {y : BitVec n} {k : BitVec l} (h : s < n ∧ n < s + l) :
    (HAppend.hAppend (γ := no_index (BitVec (m + n))) x y).extractLsb' s l = k ↔
      x.extractLsb' 0 (s + l - n) = k.extractLsb' (n - s) (s + l - n) ∧
        y.extractLsb' s (n - s) = k.extractLsb' 0 (n - s) := by
  rw [extract_eq_iff (n - s) (by omega), extract_append_above (by omega), extract_append_below (by omega),
    show s + (n - s) - n = 0 by omega, show l - (n - s) = s + l - n by omega]

end

@[simp] theorem ShiftType.ofBits_bits (t : ShiftType) : ShiftType.ofBits t.bits = t := by cases t <;> rfl

@[simp] theorem ShiftType.bits_ofBits (b : BitVec 2) : (ShiftType.ofBits b).bits = b := by decide +revert

theorem twoBits_cases (b : BitVec 2) : b = 0#2 ∨ b = 1#2 ∨ b = 2#2 ∨ b = 3#2 := by decide +revert

/-! The conditions of well-formed instructions (R131 to R136, R257). -/

theorem notT_iff {p w : BitVec 1} : notT p w = true ↔ ¬(p = 0#1 ∧ w = 1#1) := by
  simp [notT, imp_iff_not_or]

section
variable {c : CoreId} {w : Word}

theorem notBlxFields_iff {cond : BitVec 4} : notBlxFields c cond = true ↔ ¬(c = .a9 ∧ cond = 15) := by
  simp [notBlxFields, imp_iff_not_or]

theorem notPldFields_iff {cond : BitVec 4} {p w : BitVec 1} :
    notPldFields c cond p w = true ↔ ¬(c = .a9 ∧ cond = 15 ∧ p = 1 ∧ w = 0) := by
  simp [notPldFields, imp_iff_not_or, or_assoc]

theorem isPld_iff : isPld c w = true ↔ c = .a9 ∧ w.extractLsb' 28 4 = 15 ∧ w.extractLsb' 26 2 = 1 ∧ w.extractLsb' 24 1 = 1 ∧
    w.extractLsb' 20 3 = 5 := by
  simp [isPld, and_assoc]

theorem is1001_iff : is1001 w = true ↔ w.extractLsb' 25 3 = 0 ∧ w.extractLsb' 4 4 = 9 ∧ w.extractLsb' 22 6 ≠ 0 ∧
    w.extractLsb' 23 5 ≠ 1 ∧ ¬(w.extractLsb' 23 5 = 2 ∧ w.extractLsb' 20 2 = 0) := by
  simp [is1001, and_assoc, imp_iff_not_or]

theorem isMiscA_iff : isMiscA c w = true ↔ w.extractLsb' 23 5 = 2 ∧ w.extractLsb' 20 1 = 0 ∧ w.extractLsb' 4 1 = 0 ∧
    w.extractLsb' 4 4 ≠ 0 ∧ ¬(c = .a9 ∧ w.extractLsb' 7 1 = 1) := by
  simp [isMiscA, inMiscSpace, and_assoc, imp_iff_not_or]

theorem isMiscB_iff : isMiscB c w = true ↔ w.extractLsb' 23 5 = 2 ∧ w.extractLsb' 20 1 = 0 ∧ w.extractLsb' 4 1 = 1 ∧
    w.extractLsb' 7 1 = 0 ∧ ¬(w.extractLsb' 21 2 = 1 ∧ (w.extractLsb' 4 4 = 1 ∨ w.extractLsb' 4 4 = 7)) ∧
    ¬(c = .a9 ∧ (w.extractLsb' 21 2 = 1 ∧ w.extractLsb' 4 4 = 3 ∨ w.extractLsb' 21 2 = 3 ∧ w.extractLsb' 4 4 = 1 ∨
      w.extractLsb' 4 4 = 5)) := by
  simp [isMiscB, inMiscSpace, and_assoc, imp_iff_not_or]

end

/-! Where an ARM word is decoded (R136, R137). -/

section
variable {c : CoreId} {w : Word}

theorem isPld_eq_false (h : w.extractLsb' 26 2 ≠ 1#2) : isPld c w = false :=
  Bool.eq_false_iff.2 fun hpld => by
    obtain ⟨-, -, h26, -⟩ := isPld_iff.1 hpld
    exact h h26

theorem decodeArm_eq_decodeClass (hblx : ¬(c = .a9 ∧ w.extractLsb' 28 4 = 15 ∧ w.extractLsb' 25 3 = 5))
    (hpld : isPld c w = false) : decodeArm c w = decodeClass c w := by
  rw [decodeArm, if_neg hblx, if_neg (mt isPld_iff.2 (Bool.eq_false_iff.1 hpld))]

/-- The classes of the condition 1111 do not meet the keys 0, 1, 4, 6 and 7. -/
theorem decodeArm_of_key {k : BitVec 3} (hk : w.extractLsb' 25 3 = k) (h : k.extractLsb' 1 2 ≠ 1#2 ∧ k ≠ 5#3) :
    decodeArm c w = decodeClass c w := by
  obtain ⟨h26, h5⟩ := h
  refine decodeArm_eq_decodeClass (fun ⟨_, _, hk5⟩ => h5 (hk.symm.trans hk5)) (isPld_eq_false ?_)
  rwa [extract_within hk 1 2 (by decide)]

theorem decodeArm_000 (hk : w.extractLsb' 25 3 = 0#3) : decodeArm c w = decode000 c w := by
  simp [decodeArm_of_key hk, decodeClass, hk]

theorem decodeArm_001 (hk : w.extractLsb' 25 3 = 1#3) : decodeArm c w = decode001 w := by
  simp [decodeArm_of_key hk, decodeClass, hk]

theorem decodeArm_sdtImm (hk : w.extractLsb' 25 3 = 2#3) (hpld : isPld c w = false) : decodeArm c w = decodeSdtImm w := by
  simp [decodeArm_eq_decodeClass _ hpld, decodeClass, hk]

theorem decodeArm_011 (hk : w.extractLsb' 25 3 = 3#3) (hpld : isPld c w = false) :
    decodeArm c w = if w.extractLsb' 4 1 = 0 then decodeSdtReg w else .unkMedia w := by
  simp [decodeArm_eq_decodeClass _ hpld, decodeClass, hk]

theorem decodeArm_bdt (hk : w.extractLsb' 25 3 = 4#3) :
    decodeArm c w = if w.extractLsb' 20 1 = 0 then .stm (.of w) else .ldm (.of w) := by
  simp [decodeArm_of_key hk, decodeClass, hk]

theorem decodeArm_branch (hk : w.extractLsb' 25 3 = 5#3) (hblx : ¬(c = .a9 ∧ w.extractLsb' 28 4 = 15#4)) :
    decodeArm c w = if w.extractLsb' 24 1 = 0 then .b (.of w) else .bl (.of w) := by
  have hpld : isPld c w = false := isPld_eq_false (by rw [extract_within hk 1 2 (by decide)]; decide)
  rw [decodeArm_eq_decodeClass (fun ⟨hc, h15, _⟩ => hblx ⟨hc, h15⟩) hpld]
  simp [decodeClass, hk]

theorem decodeArm_111 (hk : w.extractLsb' 25 3 = 7#3) : decodeArm c w = decode111 c w := by
  simp [decodeArm_of_key hk, decodeClass, hk]

theorem decodeArm_multiply (hk : w.extractLsb' 25 3 = 0#3) (h9 : w.extractLsb' 4 4 = 9#4) :
    decodeArm c w = decodeMultiply w :=
  (decodeArm_000 hk).trans (if_pos h9)

theorem decodeArm_hdt (hk : w.extractLsb' 25 3 = 0#3) (h7 : w.extractLsb' 7 1 = 1#1) (h4 : w.extractLsb' 4 1 = 1#1)
    (h9 : w.extractLsb' 4 4 ≠ 9#4) : decodeArm c w = decodeHdt c w :=
  (decodeArm_000 hk).trans ((if_neg h9).trans (if_pos ⟨h7, h4⟩))

/-- Neither a multiply nor a halfword transfer. -/
theorem decode000_of_not_bits_7_4 (h74 : ¬(w.extractLsb' 7 1 = 1#1 ∧ w.extractLsb' 4 1 = 1#1)) :
    decode000 c w = if w.extractLsb' 23 5 = 2 ∧ w.extractLsb' 20 1 = 0 then decodeMisc c w
      else if w.extractLsb' 4 1 = 0 then decodeDpShiftImm w else decodeDpShiftReg w :=
  (if_neg fun h9 => h74 ⟨extract_within h9 3 1 (by decide), extract_within h9 0 1 (by decide)⟩).trans (if_neg h74)

theorem decodeArm_misc (hk : w.extractLsb' 23 5 = 2#5) (hs : w.extractLsb' 20 1 = 0#1)
    (h74 : ¬(w.extractLsb' 7 1 = 1#1 ∧ w.extractLsb' 4 1 = 1#1)) : decodeArm c w = decodeMisc c w :=
  (decodeArm_000 (extract_within hk 2 3 (by decide))).trans ((decode000_of_not_bits_7_4 h74).trans (if_pos ⟨hk, hs⟩))

theorem decodeArm_dp (hk : w.extractLsb' 25 3 = 0#3) (h74 : ¬(w.extractLsb' 7 1 = 1#1 ∧ w.extractLsb' 4 1 = 1#1))
    (hm : ¬(w.extractLsb' 23 5 = 2#5 ∧ w.extractLsb' 20 1 = 0#1)) :
    decodeArm c w = if w.extractLsb' 4 1 = 0 then decodeDpShiftImm w else decodeDpShiftReg w :=
  (decodeArm_000 hk).trans ((decode000_of_not_bits_7_4 h74).trans (if_neg hm))

end

/-! Fields that a row fixes: a compare has S = 1 (R138), a T form P = 0 and W = 1 (R257). -/

/-- The head of a compare with its S bit. -/
def CmpHead.full (g : CmpHead) : DpHead := { cond := g.cond, s := 1, rn := g.rn, rd := g.rd }

/-- The operands of a T form with its P and W bits, immediate offset. -/
def SdtTImmOps.full (o : SdtTImmOps) : SdtImmOps :=
  { cond := o.cond, p := 0, u := o.u, w := 1, rn := o.rn, rd := o.rd, offset := o.offset }

/-- The operands of a T form with its P and W bits, register offset. -/
def SdtTRegOps.full (o : SdtTRegOps) : SdtRegOps :=
  { cond := o.cond, p := 0, u := o.u, w := 1, rn := o.rn, rd := o.rd, amount := o.amount, type := o.type, rm := o.rm }

section
variable {w : Word}

theorem CmpHead.full_s (g : CmpHead) : g.full.s ≠ 0#1 := by simp [full]

theorem CmpHead.of_eq {g : CmpHead} (h : DpHead.of w = g.full) : CmpHead.of w = g := by
  obtain ⟨hcond, -, hrn, hrd⟩ := DpHead.mk.inj h
  rw [CmpHead.of, hcond, hrn, hrd]

theorem SdtTImmOps.of_eq {o : SdtTImmOps} (h : SdtImmOps.of w = o.full) : SdtTImmOps.of w = o := by
  obtain ⟨hcond, -, hu, -, hrn, hrd, hoff⟩ := SdtImmOps.mk.inj h
  rw [SdtTImmOps.of, hcond, hu, hrn, hrd, hoff]

theorem SdtTRegOps.of_eq {o : SdtTRegOps} (h : SdtRegOps.of w = o.full) : SdtTRegOps.of w = o := by
  obtain ⟨hcond, -, hu, -, hrn, hrd, ham, hty, hrm⟩ := SdtRegOps.mk.inj h
  rw [SdtTRegOps.of, hcond, hu, hrn, hrd, ham, hty, hrm]

end

/-! The formats with many rows. The key bits of the word name the row, and its operands are read back. -/

section
variable {c : CoreId} {i : Instr}

theorem decode_encode_arm {w : Word} (henc : encode i = .arm w) (hdec : decodeArm c w = i) : decode c (encode i) = i := by
  rw [henc]
  exact hdec

theorem dpImm_roundTrip {op : BitVec 4} {h : DpHead} {x : ImmOperand} (hs : op.extractLsb' 2 2 = 2#2 → h.s ≠ 0#1)
    (henc : encode i = .arm (h.cond ++ 1#3 ++ op ++ h.s ++ h.rn ++ h.rd ++ x.rotate ++ x.imm8))
    (hdec : ∀ w : Word, w.extractLsb' 21 4 = op → DpHead.of w = h → ImmOperand.of w = x → decodeDpImm w = i) :
    decode c (encode i) = i := by
  refine decode_encode_arm henc ((decodeArm_001 (by simp)).trans ?_)
  simp +contextual [decode001, hs, hdec, DpHead.of, ImmOperand.of]

theorem dpShiftImm_roundTrip {op : BitVec 4} {h : DpHead} {x : ShiftImmOperand} (hs : op.extractLsb' 2 2 = 2#2 → h.s ≠ 0#1)
    (henc : encode i = .arm (h.cond ++ 0#3 ++ op ++ h.s ++ h.rn ++ h.rd ++ x.amount ++ x.type.bits ++ 0#1 ++ x.rm))
    (hdec : ∀ w : Word, w.extractLsb' 21 4 = op → DpHead.of w = h → ShiftImmOperand.of w = x → decodeDpShiftImm w = i) :
    decode c (encode i) = i := by
  refine decode_encode_arm henc ((decodeArm_dp (by simp) (by simp) (by simpa using hs)).trans ?_)
  simp [hdec, DpHead.of, ShiftImmOperand.of]

theorem dpShiftReg_roundTrip {op : BitVec 4} {h : DpHead} {x : ShiftRegOperand} (hs : op.extractLsb' 2 2 = 2#2 → h.s ≠ 0#1)
    (henc : encode i = .arm (h.cond ++ 0#3 ++ op ++ h.s ++ h.rn ++ h.rd ++ x.rs ++ 0#1 ++ x.type.bits ++ 1#1 ++ x.rm))
    (hdec : ∀ w : Word, w.extractLsb' 21 4 = op → DpHead.of w = h → ShiftRegOperand.of w = x → decodeDpShiftReg w = i) :
    decode c (encode i) = i := by
  refine decode_encode_arm henc ((decodeArm_dp (by simp) (by simp) (by simpa using hs)).trans ?_)
  simp [hdec, DpHead.of, ShiftRegOperand.of]

theorem mull_roundTrip {a : BitVec 2} {o : MullOps}
    (henc : encode i = .arm (o.cond ++ 1#5 ++ a ++ o.s ++ o.rdHi ++ o.rdLo ++ o.rs ++ 9#4 ++ o.rm))
    (hdec : ∀ w : Word, w.extractLsb' 22 6 ≠ 0#6 → w.extractLsb' 23 5 = 1#5 → w.extractLsb' 21 2 = a → MullOps.of w = o →
      decodeMultiply w = i) : decode c (encode i) = i := by
  refine decode_encode_arm henc ((decodeArm_multiply (by simp) (by simp)).trans ?_)
  exact hdec _ (by simp) (by simp) (by simp) (by simp [MullOps.of])

theorem hdtReg_roundTrip {l : BitVec 1} {sh : BitVec 2} {o : HdtRegOps} (hsh : sh ≠ 0#2)
    (henc : encode i =
      .arm (o.cond ++ 0#3 ++ o.p ++ o.u ++ 0#1 ++ o.w ++ l ++ o.rn ++ o.rd ++ o.sbz ++ 1#1 ++ sh ++ 1#1 ++ o.rm))
    (hdec : ∀ w : Word, w.extractLsb' 20 1 = l → w.extractLsb' 5 2 = sh → w.extractLsb' 22 1 = 0 → HdtRegOps.of w = o →
      decodeHdt c w = i) : decode c (encode i) = i := by
  refine decode_encode_arm henc ((decodeArm_hdt (by simp) (by simp) (by simp) (by simp [hsh])).trans ?_)
  exact hdec _ (by simp) (by simp) (by simp) (by simp [HdtRegOps.of])

theorem hdtImm_roundTrip {l : BitVec 1} {sh : BitVec 2} {o : HdtImmOps} (hsh : sh ≠ 0#2)
    (henc : encode i = .arm ((o.cond ++ 0#3 ++ o.p ++ o.u ++ 1#1 ++ o.w ++ l) ++
      (o.rn ++ o.rd ++ o.immHi ++ 1#1 ++ sh ++ 1#1 ++ o.immLo)))
    (hdec : ∀ w : Word, w.extractLsb' 20 1 = l → w.extractLsb' 5 2 = sh → w.extractLsb' 22 1 = 1 → HdtImmOps.of w = o →
      decodeHdt c w = i) : decode c (encode i) = i := by
  refine decode_encode_arm henc ((decodeArm_hdt (by simp) (by simp) (by simp) (by simp [hsh])).trans ?_)
  exact hdec _ (by simp) (by simp) (by simp) (by simp [HdtImmOps.of])

/-- A word is PLD on core A9 only as an LDRB with fields of its own (R136). -/
theorem isPld_eq_false_of_fields {w : Word} (h : w.extractLsb' 22 1 = 1#1 → w.extractLsb' 20 1 = 1#1 →
    notPldFields c (w.extractLsb' 28 4) (w.extractLsb' 24 1) (w.extractLsb' 21 1) = true) : isPld c w = false :=
  Bool.eq_false_iff.2 fun hpld => by
    obtain ⟨hc, hcond, -, hp, h5⟩ := isPld_iff.1 hpld
    have hfields := h (extract_within h5 2 1 (by decide)) (extract_within h5 0 1 (by decide))
    exact notPldFields_iff.1 hfields ⟨hc, hcond, hp, extract_within h5 1 1 (by decide)⟩

theorem sdtImm_roundTrip {b l : BitVec 1} {o : SdtImmOps} (hp : b = 1#1 → l = 1#1 → notPldFields c o.cond o.p o.w = true)
    (henc : encode i = .arm (o.cond ++ 2#3 ++ o.p ++ o.u ++ b ++ o.w ++ l ++ o.rn ++ o.rd ++ o.offset))
    (hdec : ∀ w : Word, w.extractLsb' 24 1 = o.p → w.extractLsb' 22 1 = b → w.extractLsb' 21 1 = o.w →
      w.extractLsb' 20 1 = l → SdtImmOps.of w = o → decodeSdtImm w = i) : decode c (encode i) = i := by
  refine decode_encode_arm henc ((decodeArm_sdtImm (by simp) (isPld_eq_false_of_fields (by simpa using hp))).trans ?_)
  exact hdec _ (by simp) (by simp) (by simp) (by simp) (by simp [SdtImmOps.of])

theorem sdtReg_roundTrip {b l : BitVec 1} {o : SdtRegOps} (hp : b = 1#1 → l = 1#1 → notPldFields c o.cond o.p o.w = true)
    (henc : encode i = .arm ((o.cond ++ 3#3 ++ o.p ++ o.u ++ b ++ o.w) ++
      (l ++ o.rn ++ o.rd ++ o.amount ++ o.type.bits ++ 0#1 ++ o.rm)))
    (hdec : ∀ w : Word, w.extractLsb' 24 1 = o.p → w.extractLsb' 22 1 = b → w.extractLsb' 21 1 = o.w →
      w.extractLsb' 20 1 = l → SdtRegOps.of w = o → decodeSdtReg w = i) : decode c (encode i) = i := by
  refine decode_encode_arm henc ((decodeArm_011 (by simp) (isPld_eq_false_of_fields (by simpa using hp))).trans
    ((if_pos (by simp)).trans ?_))
  exact hdec _ (by simp) (by simp) (by simp) (by simp) (by simp [SdtRegOps.of])

end
end Sys2Proof
end

section
/-! PROOFS. Decoding the encoding (O1): the rows. -/

namespace Sys2Proof

section
variable {c : CoreId} {i : Instr}

/-! The rows of unknown words (R390): the word meets the conditions under which the decoder keeps it whole. -/

section
variable {w : Word}

theorem decodeArm_unkDoubleA7 (h : wellFormed c (.unkDoubleA7 w) = true) : decodeArm c w = .unkDoubleA7 w := by
  simp only [wellFormed, Bool.and_eq_true, beq_iff_eq] at h
  obtain ⟨⟨⟨⟨rfl, hk⟩, hl⟩, h76⟩, h4⟩ := h
  have h7 : w.extractLsb' 7 1 = 1#1 := extract_within h76 1 1 (by decide)
  have h6 : w.extractLsb' 6 1 = 1#1 := extract_within h76 0 1 (by decide)
  have h9 : w.extractLsb' 4 4 ≠ 9#4 := fun h9 =>
    absurd (h6.symm.trans (extract_within h9 2 1 (by decide))) (by decide)
  rw [decodeArm_hdt hk h7 h4 h9]
  obtain hsh | hsh | hsh | hsh := twoBits_cases (w.extractLsb' 5 2)
  · exact absurd (h6.symm.trans (extract_within hsh 1 1 (by decide))) (by decide)
  · exact absurd (h6.symm.trans (extract_within hsh 1 1 (by decide))) (by decide)
  · simp [decodeHdt, hl, hsh]
  · simp [decodeHdt, hl, hsh]

theorem decodeArm_unk1001 (h : is1001 w = true) : decodeArm c w = .unk1001 w := by
  obtain ⟨hk, h9, h22, h23, hswp⟩ := is1001_iff.1 h
  rw [decodeArm_multiply hk h9, decodeMultiply, if_neg h22, if_neg h23, if_neg hswp]

/-- With bit 4 clear the field 7:4 is even. -/
theorem bits_7_4_of_even {b : BitVec 4} (h : b.extractLsb' 0 1 = 0#1) : b ≠ 1 ∧ b ≠ 3 ∧ b ≠ 5 ∧ b ≠ 7 := by
  decide +revert

theorem decodeArm_unkMiscA (h : isMiscA c w = true) : decodeArm c w = .unkMiscA w := by
  obtain ⟨hk, hs, h4, h0, h7⟩ := isMiscA_iff.1 h
  obtain ⟨n1, n3, n5, n7⟩ := bits_7_4_of_even ((extract_extract w (by decide)).trans h4)
  rw [decodeArm_misc hk hs fun h74 => absurd (h4.symm.trans h74.2) (by decide), decodeMisc, if_neg h0,
    if_neg fun h => n1 h.2, if_neg fun h => n3 h.2.2, if_neg fun h => n1 h.2.2, if_neg fun h => n5 h.2,
    if_neg fun h => h7 ⟨h.1, h.2.1⟩, if_neg fun h => n7 h.2, if_pos h4]

theorem decodeArm_unkMiscB (h : isMiscB c w = true) : decodeArm c w = .unkMiscB w := by
  obtain ⟨hk, hs, h4, h7, hrow, hrow9⟩ := isMiscB_iff.1 h
  have b7 : w.extractLsb' 7 1 ≠ 1 := fun h => absurd (h7.symm.trans h) (by decide)
  have b4 : w.extractLsb' 4 1 ≠ 0 := fun h => absurd (h4.symm.trans h) (by decide)
  have h0 : w.extractLsb' 4 4 ≠ 0 := fun h => b4 (extract_within h 0 1 (by decide))
  rw [decodeArm_misc hk hs fun h => b7 h.1, decodeMisc, if_neg h0, if_neg fun h => hrow ⟨h.1, .inl h.2⟩,
    if_neg fun h => hrow9 ⟨h.1, .inl h.2⟩, if_neg fun h => hrow9 ⟨h.1, .inr (.inl h.2)⟩,
    if_neg fun h => hrow9 ⟨h.1, .inr (.inr h.2)⟩, if_neg fun h => b7 h.2.1, if_neg fun h => hrow ⟨h.1, .inr h.2⟩, if_neg b4]

theorem decodeArm_unkImm (h : wellFormed c (.unkImm w) = true) : decodeArm c w = .unkImm w := by
  simp only [wellFormed, Bool.and_eq_true, beq_iff_eq] at h
  obtain ⟨hk, hs⟩ := h
  have h23 : w.extractLsb' 23 2 = 2#2 := extract_within hk 0 2 (by decide)
  have h20 : w.extractLsb' 20 1 = 0#1 := extract_within hs 0 1 (by decide)
  have h21 : w.extractLsb' 21 1 = 0#1 := extract_within hs 1 1 (by decide)
  simp [decodeArm_001 (extract_within hk 2 3 (by decide)), decode001, h23, h20, h21]

theorem decodeArm_unkMedia (h : wellFormed c (.unkMedia w) = true) : decodeArm c w = .unkMedia w := by
  simp only [wellFormed, Bool.and_eq_true, beq_iff_eq, Bool.not_eq_true'] at h
  obtain ⟨⟨hk, h4⟩, hpld⟩ := h
  simp [decodeArm_011 hk hpld, h4]

theorem decodeArm_unkLdcStc (h : wellFormed c (.unkLdcStc w) = true) : decodeArm c w = .unkLdcStc w := by
  have hk : w.extractLsb' 25 3 = 6#3 := eq_of_beq h
  simp [decodeArm_of_key hk, decodeClass, hk]

theorem decodeArm_unkCdp (h : wellFormed c (.unkCdp w) = true) : decodeArm c w = .unkCdp w := by
  simp only [wellFormed, Bool.and_eq_true, beq_iff_eq] at h
  obtain ⟨hk, h4⟩ := h
  have h24 : w.extractLsb' 24 1 = 0#1 := extract_within hk 0 1 (by decide)
  simp [decodeArm_111 (extract_within hk 1 3 (by decide)), decode111, h24, h4]

variable {h : Half}

theorem decodeThumb_unk1011 (hi : wellFormed c (.tUnk1011 h) = true) : decodeThumb c h = .tUnk1011 h := by
  simp only [wellFormed, Bool.and_eq_true, bne_iff_ne, beq_iff_eq, BitVec.ofNat_eq_ofNat] at hi
  obtain ⟨⟨⟨hk, h0⟩, h2⟩, h14⟩ := hi
  have h13 : h.extractLsb' 13 3 = 5#3 := extract_within hk 1 3 (by decide)
  have h12 : h.extractLsb' 12 1 = 1#1 := extract_within hk 0 1 (by decide)
  simp [decodeThumb, h13, h12, decodeThumb1011, h0, h2, h14]

theorem decodeThumb_unkDe (hi : wellFormed c (.tUnkDe h) = true) : decodeThumb c h = .tUnkDe h := by
  have hk : h.extractLsb' 8 8 = 222#8 := eq_of_beq hi
  have h13 : h.extractLsb' 13 3 = 6#3 := extract_within hk 5 3 (by decide)
  have h12 : h.extractLsb' 12 1 = 1#1 := extract_within hk 4 1 (by decide)
  have h8 : h.extractLsb' 8 4 = 14#4 := extract_within hk 0 4 (by decide)
  simp [decodeThumb, h13, h12, decodeThumb1101, h8]

theorem decodeThumb_unk11101 (hi : wellFormed c (.tUnk11101 h) = true) : decodeThumb c h = .tUnk11101 h := by
  simp only [wellFormed, Bool.and_eq_true, beq_iff_eq] at hi
  obtain ⟨rfl, hk⟩ := hi
  have h13 : h.extractLsb' 13 3 = 7#3 := extract_within hk 2 3 (by decide)
  have h11 : h.extractLsb' 11 2 = 1#2 := extract_within hk 0 2 (by decide)
  simp [decodeThumb, h13, decodeThumb111, h11]

end

theorem decode_encode_thumb (hi : wellFormed c i = true) (ht : Laws.Coding.isThumbRow i = true) :
    decode c (encode i) = i := by
  cases i
  case tLslImm o | tLsrImm o | tAsrImm o | tAddReg o | tSubReg o | tAddImm3 o | tSubImm3 o =>
    simp [decode, encode, decodeThumb, decodeThumb000, TShiftOps.of, TAddRegOps.of, TAddImmOps.of]
  case tMovImm8 o | tCmpImm8 o | tAddImm8 o | tSubImm8 o =>
    simp [decode, encode, decodeThumb, TImm8Ops.of]
  case tAnd o | tEor o | tLslReg o | tLsrReg o | tAsrReg o | tAdc o | tSbc o | tRorReg o | tTst o | tNeg o | tCmpReg o |
      tCmn o | tOrr o | tMul o | tBic o | tMvn o =>
    simp [decode, encode, decodeThumb, decodeThumb010, decodeThumbAlu, TAluOps.of]
  case tAddHi o | tCmpHi o | tMovHi o | tBx o =>
    simp [decode, encode, decodeThumb, decodeThumb010, decodeThumbHi, THiOps.of, TBxOps.of]
  case tBlxReg o | tBxH1 o =>
    obtain rfl := eq_of_beq hi
    simp [decode, encode, decodeThumb, decodeThumb010, decodeThumbHi, TBxOps.of]
  case tLdrPc o | tStrReg o | tStrbReg o | tLdrReg o | tLdrbReg o | tStrhReg o | tLdsbReg o | tLdrhReg o | tLdshReg o =>
    simp [decode, encode, decodeThumb, decodeThumb010, TImm8Ops.of, TRegOffOps.of]
  case tStrImm o | tLdrImm o | tStrbImm o | tLdrbImm o | tStrhImm o | tLdrhImm o | tStrSp o | tLdrSp o =>
    simp [decode, encode, decodeThumb, TImmOffOps.of, TImm8Ops.of]
  case tAddPc o | tAddSp o | tIncSp o | tDecSp o | tPush o | tPop o | tBkpt o =>
    simp [decode, encode, decodeThumb, decodeThumb1011, TImm8Ops.of, TAdjOps.of, TPushPopOps.of, TCommentOps.of]
  case tStmia o | tLdmia o | tSwi o =>
    simp [decode, encode, decodeThumb, decodeThumb1101, TBlockOps.of, TCommentOps.of]
  case tBcond o =>
    have hcond : o.cond ≠ 14#4 ∧ o.cond ≠ 15#4 := by
      constructor <;> intro h <;> simp [wellFormed, h] at hi
    simp [decode, encode, decodeThumb, decodeThumb1101, TCondOps.of, hcond]
  case tB o | tBlPrefix o | tBlSuffix o =>
    simp [decode, encode, decodeThumb, decodeThumb111, TBranchOps.of]
  case tBlxSuffix o =>
    obtain rfl := eq_of_beq hi
    simp [decode, encode, decodeThumb, decodeThumb111, TBranchOps.of]
  case tUnk1011 half => exact decodeThumb_unk1011 hi
  case tUnkDe half => exact decodeThumb_unkDe hi
  case tUnk11101 half => exact decodeThumb_unk11101 hi
  all_goals exact absurd ht Bool.false_ne_true

theorem notPldFields_tForm (c : CoreId) (cond : BitVec 4) : notPldFields c cond 0 1 = true :=
  notPldFields_iff.2 fun ⟨_, _, hp, _⟩ => absurd hp (by decide)

theorem decode_encode_armRow (hi : wellFormed c i = true) (ha : Laws.Coding.isThumbRow i = false) :
    decode c (encode i) = i := by
  cases i
  case andImm h x | eorImm h x | subImm h x | rsbImm h x | addImm h x | adcImm h x | sbcImm h x | rscImm h x | orrImm h x |
      movImm h x | bicImm h x | mvnImm h x =>
    exact dpImm_roundTrip (fun e => absurd e (by decide)) rfl fun w hop hh hx => by simp [decodeDpImm, hop, hh, hx]
  case tstImm h x | teqImm h x | cmpImm h x | cmnImm h x =>
    exact dpImm_roundTrip (h := h.full) (fun _ => h.full_s) rfl fun w hop hh hx => by
      simp [decodeDpImm, hop, CmpHead.of_eq hh, hx]
  case andShiftImm h x | eorShiftImm h x | subShiftImm h x | rsbShiftImm h x | addShiftImm h x | adcShiftImm h x |
      sbcShiftImm h x | rscShiftImm h x | orrShiftImm h x | movShiftImm h x | bicShiftImm h x | mvnShiftImm h x =>
    exact dpShiftImm_roundTrip (fun e => absurd e (by decide)) rfl fun w hop hh hx => by simp [decodeDpShiftImm, hop, hh, hx]
  case tstShiftImm h x | teqShiftImm h x | cmpShiftImm h x | cmnShiftImm h x =>
    exact dpShiftImm_roundTrip (h := h.full) (fun _ => h.full_s) rfl fun w hop hh hx => by
      simp [decodeDpShiftImm, hop, CmpHead.of_eq hh, hx]
  case andShiftReg h x | eorShiftReg h x | subShiftReg h x | rsbShiftReg h x | addShiftReg h x | adcShiftReg h x |
      sbcShiftReg h x | rscShiftReg h x | orrShiftReg h x | movShiftReg h x | bicShiftReg h x | mvnShiftReg h x =>
    exact dpShiftReg_roundTrip (fun e => absurd e (by decide)) rfl fun w hop hh hx => by simp [decodeDpShiftReg, hop, hh, hx]
  case tstShiftReg h x | teqShiftReg h x | cmpShiftReg h x | cmnShiftReg h x =>
    exact dpShiftReg_roundTrip (h := h.full) (fun _ => h.full_s) rfl fun w hop hh hx => by
      simp [decodeDpShiftReg, hop, CmpHead.of_eq hh, hx]
  case mul o | mla o | swp o | swpb o =>
    refine decode_encode_arm rfl ((decodeArm_multiply (by simp) (by simp)).trans ?_)
    simp [decodeMultiply, MulOps.of, SwpOps.of]
  case umull o | umlal o | smull o | smlal o =>
    exact mull_roundTrip rfl fun w h22 h23 ha ho => by simp [decodeMultiply, h22, h23, ha, ho]
  case strhReg o | ldrhReg o | ldrsbReg o | ldrshReg o =>
    exact hdtReg_roundTrip (by decide) rfl fun w hl hsh hb ho => by simp [decodeHdt, hl, hsh, hb, ho]
  case strhImm o | ldrhImm o | ldrsbImm o | ldrshImm o =>
    exact hdtImm_roundTrip (by decide) rfl fun w hl hsh hb ho => by simp [decodeHdt, hl, hsh, hb, ho]
  case ldrdReg o | strdReg o =>
    obtain rfl := eq_of_beq hi
    exact hdtReg_roundTrip (by decide) rfl fun w hl hsh hb ho => by simp [decodeHdt, hl, hsh, hb, ho]
  case ldrdImm o | strdImm o =>
    obtain rfl := eq_of_beq hi
    exact hdtImm_roundTrip (by decide) rfl fun w hl hsh hb ho => by simp [decodeHdt, hl, hsh, hb, ho]
  case mrs o | msrCpsrReg o | msrSpsrReg o | bx o | bkpt o =>
    refine decode_encode_arm rfl ((decodeArm_misc (by simp) (by simp) (by simp)).trans ?_)
    simp [decodeMisc, MrsOps.of, MsrRegOps.of, BxOps.of, BkptOps.of]
  case blxReg o | clz o | qadd o | qsub o | qdadd o | qdsub o | smlaXy o | smulXy o | smlawY o | smulwY o | smlalXy o =>
    obtain rfl := eq_of_beq hi
    refine decode_encode_arm rfl ((decodeArm_misc (by simp) (by simp) (by simp)).trans ?_)
    simp [decodeMisc, BxOps.of, ClzOps.of, QOps.of, SmulOps.of, SmulwOps.of, SmlalOps.of]
  case msrCpsrImm o | msrSpsrImm o =>
    refine decode_encode_arm rfl ((decodeArm_001 (by simp)).trans ?_)
    simp [decode001, MsrImmOps.of]
  case strImm o | ldrImm o | strbImm o =>
    exact sdtImm_roundTrip (by simp) rfl fun w hp hb hw hl ho => by simp [decodeSdtImm, hp, hb, hw, hl, notT_iff.1 hi, ho]
  case strReg o | ldrReg o | strbReg o =>
    exact sdtReg_roundTrip (by simp) rfl fun w hp hb hw hl ho => by simp [decodeSdtReg, hp, hb, hw, hl, notT_iff.1 hi, ho]
  case ldrbImm o =>
    obtain ⟨ht, hpld⟩ := Bool.and_eq_true_iff.1 hi
    exact sdtImm_roundTrip (fun _ _ => hpld) rfl fun w hp hb hw hl ho => by
      simp [decodeSdtImm, hp, hb, hw, hl, notT_iff.1 ht, ho]
  case ldrbReg o =>
    obtain ⟨ht, hpld⟩ := Bool.and_eq_true_iff.1 hi
    exact sdtReg_roundTrip (fun _ _ => hpld) rfl fun w hp hb hw hl ho => by
      simp [decodeSdtReg, hp, hb, hw, hl, notT_iff.1 ht, ho]
  case strtImm o | ldrtImm o | strbtImm o | ldrbtImm o =>
    exact sdtImm_roundTrip (o := o.full) (fun _ _ => notPldFields_tForm c o.cond) rfl fun w hp hb hw hl ho => by
      simp [decodeSdtImm, hp, hb, hw, hl, SdtTImmOps.full, SdtTImmOps.of_eq ho]
  case strtReg o | ldrtReg o | strbtReg o | ldrbtReg o =>
    exact sdtReg_roundTrip (o := o.full) (fun _ _ => notPldFields_tForm c o.cond) rfl fun w hp hb hw hl ho => by
      simp [decodeSdtReg, hp, hb, hw, hl, SdtTRegOps.full, SdtTRegOps.of_eq ho]
  case stm o | ldm o =>
    refine decode_encode_arm rfl ((decodeArm_bdt (by simp)).trans ?_)
    simp [BdtOps.of]
  case b o | bl o =>
    refine decode_encode_arm rfl ((decodeArm_branch (by simp) (by simpa using notBlxFields_iff.1 hi)).trans ?_)
    simp [BranchOps.of]
  case blxLabel o =>
    obtain rfl := eq_of_beq hi
    simp [decode, encode, decodeArm, BlxLabelOps.of]
  case pld o =>
    obtain rfl := eq_of_beq hi
    simp [decode, encode, decodeArm, PldOps.of]
  case mrc o | mcr o =>
    obtain rfl := eq_of_beq hi
    refine decode_encode_arm rfl ((decodeArm_111 (by simp)).trans ?_)
    simp [decode111, CoprocOps.of]
  case coprocOther o =>
    have hcp : ¬(c = .a9 ∧ o.cp = 15#4 ∧ o.op1 = 0#3) := by
      simpa [wellFormed, imp_iff_not_or, or_assoc] using hi
    refine decode_encode_arm rfl ((decodeArm_111 (by simp)).trans ?_)
    simp [decode111, CoprocOtherOps.of, hcp]
  case swi o =>
    refine decode_encode_arm rfl ((decodeArm_111 (by simp)).trans ?_)
    simp [decode111, SwiOps.of]
  case unkDoubleA7 word => exact decodeArm_unkDoubleA7 hi
  case unkMiscA word => exact decodeArm_unkMiscA hi
  case unkMiscB word => exact decodeArm_unkMiscB hi
  case unkImm word => exact decodeArm_unkImm hi
  case unk1001 word => exact decodeArm_unk1001 hi
  case unkMedia word => exact decodeArm_unkMedia hi
  case unkLdcStc word => exact decodeArm_unkLdcStc hi
  case unkCdp word => exact decodeArm_unkCdp hi
  all_goals exact absurd ha.symm Bool.false_ne_true

end

/-- Settles O1: row by row, the decoder finds the row by the key bits and reads the operands back. -/
theorem decodeEncode : Obligations.DecodeEncode := by
  intro c i hi
  cases ht : Laws.Coding.isThumbRow i
  · exact decode_encode_armRow hi ht
  · exact decode_encode_thumb hi ht

end Sys2Proof
end

section
/-! PROOFS. Encoding the decoding (O2): which field of a word an operand is, and what each decoder answers with. -/

namespace Sys2Proof

/-- The value of two adjacent fields is that of the one field they make. -/
theorem extract_join {k s s' l l' : Nat} {w : BitVec k} {x : BitVec l'} {y : BitVec l} (hx : w.extractLsb' s' l' = x)
    (hy : w.extractLsb' s l = y) (hs : s' = s + l) : w.extractLsb' s (l' + l) = x ++ y := by
  subst hx hy
  exact (extract_append_extract hs).symm

/-- `x` stands in `w` from bit `s` on. -/
def StandsIn {n k : Nat} (x : BitVec n) (w : BitVec k) (s : Nat) : Prop := w.extractLsb' s n = x

section
variable {k s m n : Nat} {w : BitVec k}

@[simp] theorem append_standsIn {x : BitVec m} {y : BitVec n} :
    StandsIn (n := no_index (m + n)) (HAppend.hAppend (γ := no_index (BitVec (m + n))) x y) w s ↔
      StandsIn x w (s + n) ∧ StandsIn y w s := by
  refine ⟨fun h => ⟨?_, ?_⟩, ?_⟩
  · exact (extract_within h n m (Nat.add_comm n m).le).trans BitVec.extractLsb'_append_eq_left
  · exact (extract_within (l := m + n) h 0 n (by omega)).trans BitVec.extractLsb'_append_eq_right
  · rintro ⟨rfl, rfl⟩
    exact (extract_append_extract rfl).symm

@[simp] theorem extract_standsIn : StandsIn (w.extractLsb' s n) w s := rfl

@[simp] theorem ofNat_standsIn {a : Nat} : StandsIn (BitVec.ofNat n a) w s ↔ w.extractLsb' s n = BitVec.ofNat n a := Iff.rfl

end

/-- The instruction is well formed on the core, and its code is the one given. -/
def Reads (c : CoreId) (code : Code) (i : Instr) : Prop := encode i = code ∧ wellFormed c i = true

theorem reads_arm {c : CoreId} {i : Instr} {w x : Word} (henc : encode i = .arm x) (hx : StandsIn x w 0)
    (hwf : wellFormed c i = true) : Reads c (.arm w) i :=
  ⟨henc.trans (congrArg Code.arm (hx.symm.trans BitVec.extractLsb'_eq_self)), hwf⟩

theorem reads_thumb {c : CoreId} {i : Instr} {h x : Half} (henc : encode i = .thumb x) (hx : StandsIn x h 0)
    (hwf : wellFormed c i = true) : Reads c (.thumb h) i :=
  ⟨henc.trans (congrArg Code.thumb (hx.symm.trans BitVec.extractLsb'_eq_self)), hwf⟩

theorem bit_eq_one {b : BitVec 1} (h : b ≠ 0#1) : b = 1#1 := (BitVec.eq_zero_or_eq_one b).resolve_left h

theorem bit_eq_zero {b : BitVec 1} (h : b ≠ 1#1) : b = 0#1 := (BitVec.eq_zero_or_eq_one b).resolve_right h

theorem threeBits_cases (b : BitVec 3) :
    b = 0#3 ∨ b = 1#3 ∨ b = 2#3 ∨ b = 3#3 ∨ b = 4#3 ∨ b = 5#3 ∨ b = 6#3 ∨ b = 7#3 := by decide +revert

theorem fourBits_cases (b : BitVec 4) : b = 0#4 ∨ b = 1#4 ∨ b = 2#4 ∨ b = 3#4 ∨ b = 4#4 ∨ b = 5#4 ∨ b = 6#4 ∨ b = 7#4 ∨
    b = 8#4 ∨ b = 9#4 ∨ b = 10#4 ∨ b = 11#4 ∨ b = 12#4 ∨ b = 13#4 ∨ b = 14#4 ∨ b = 15#4 := by decide +revert

theorem condition_lt {b : BitVec 4} (h14 : b ≠ 14#4) (h15 : b ≠ 15#4) : b.toNat < 14 := by decide +revert

/-! The classes of ARM words (R137). -/

section
variable {c : CoreId} {w : Word}

/-- The opcodes with upper bits 10 are the compares, and a compare in the space of data processing has S = 1. -/
theorem opcode_cases (hs : w.extractLsb' 23 2 = 2#2 → w.extractLsb' 20 1 = 1#1) :
    ((w.extractLsb' 21 4 = 8#4 ∨ w.extractLsb' 21 4 = 9#4 ∨ w.extractLsb' 21 4 = 10#4 ∨ w.extractLsb' 21 4 = 11#4) ∧
      w.extractLsb' 20 1 = 1#1) ∨
    w.extractLsb' 21 4 = 0#4 ∨ w.extractLsb' 21 4 = 1#4 ∨ w.extractLsb' 21 4 = 2#4 ∨ w.extractLsb' 21 4 = 3#4 ∨
    w.extractLsb' 21 4 = 4#4 ∨ w.extractLsb' 21 4 = 5#4 ∨ w.extractLsb' 21 4 = 6#4 ∨ w.extractLsb' 21 4 = 7#4 ∨
    w.extractLsb' 21 4 = 12#4 ∨ w.extractLsb' 21 4 = 13#4 ∨ w.extractLsb' 21 4 = 14#4 ∨ w.extractLsb' 21 4 = 15#4 := by
  rw [← extract_extract (l := 4) (s := 21) (a := 2) w (by decide)] at hs
  obtain h | h | h | h | h | h | h | h | h | h | h | h | h | h | h | h := fourBits_cases (w.extractLsb' 21 4) <;>
    simp [h] at hs ⊢
  all_goals exact hs

theorem decodeDpImm_reads (hk : w.extractLsb' 25 3 = 1#3) (hs : w.extractLsb' 23 2 = 2#2 → w.extractLsb' 20 1 = 1#1) :
    Reads c (.arm w) (decodeDpImm w) := by
  obtain ⟨h | h | h | h, hs⟩ | h | h | h | h | h | h | h | h | h | h | h | h := opcode_cases hs <;> rw [decodeDpImm, h] <;>
    exact reads_arm rfl (by simp [CmpHead.of, DpHead.of, ImmOperand.of, hk, h, hs]) rfl

theorem decodeDpShiftImm_reads (hk : w.extractLsb' 25 3 = 0#3) (h4 : w.extractLsb' 4 1 = 0#1)
    (hs : w.extractLsb' 23 2 = 2#2 → w.extractLsb' 20 1 = 1#1) :
    Reads c (.arm w) (decodeDpShiftImm w) := by
  obtain ⟨h | h | h | h, hs⟩ | h | h | h | h | h | h | h | h | h | h | h | h := opcode_cases hs <;> rw [decodeDpShiftImm, h] <;>
    exact reads_arm rfl (by simp [CmpHead.of, DpHead.of, ShiftImmOperand.of, hk, h, hs, h4]) rfl

theorem decodeDpShiftReg_reads (hk : w.extractLsb' 25 3 = 0#3) (h7 : w.extractLsb' 7 1 = 0#1) (h4 : w.extractLsb' 4 1 = 1#1)
    (hs : w.extractLsb' 23 2 = 2#2 → w.extractLsb' 20 1 = 1#1) :
    Reads c (.arm w) (decodeDpShiftReg w) := by
  obtain ⟨h | h | h | h, hs⟩ | h | h | h | h | h | h | h | h | h | h | h | h := opcode_cases hs <;> rw [decodeDpShiftReg, h] <;>
    exact reads_arm rfl (by simp [CmpHead.of, DpHead.of, ShiftRegOperand.of, hk, h, hs, h7, h4]) rfl

theorem decodeMultiply_reads (hk : w.extractLsb' 25 3 = 0#3) (h9 : w.extractLsb' 4 4 = 9#4) :
    Reads c (.arm w) (decodeMultiply w) := by
  simp only [decodeMultiply, BitVec.ofNat_eq_ofNat]
  split_ifs with h22 h21 h23 hswp hb
  · exact reads_arm rfl (by simp [MulOps.of, h22, h21, h9]) rfl
  · exact reads_arm rfl (by simp [MulOps.of, h22, bit_eq_one h21, h9]) rfl
  · obtain h | h | h | h := twoBits_cases (w.extractLsb' 21 2) <;> rw [h] <;>
      exact reads_arm rfl (by simp [MullOps.of, h23, h, h9]) rfl
  · obtain ⟨h23, h20⟩ := hswp
    exact reads_arm rfl (by simp [SwpOps.of, h23, hb, h20, h9]) rfl
  · obtain ⟨h23, h20⟩ := hswp
    exact reads_arm rfl (by simp [SwpOps.of, h23, bit_eq_one hb, h20, h9]) rfl
  · exact ⟨rfl, is1001_iff.2 ⟨hk, h9, h22, h23, hswp⟩⟩

theorem decodeHdt_reads (hk : w.extractLsb' 25 3 = 0#3) (h7 : w.extractLsb' 7 1 = 1#1) (h4 : w.extractLsb' 4 1 = 1#1)
    (hsh : w.extractLsb' 5 2 ≠ 0#2) : Reads c (.arm w) (decodeHdt c w) := by
  have unknown (h6 : w.extractLsb' 6 1 = 1#1) (hl : w.extractLsb' 20 1 = 0#1) : Reads .a7 (.arm w) (.unkDoubleA7 w) := by
    have h76 : w.extractLsb' 6 2 = 3#2 := extract_join h7 h6 rfl
    exact ⟨rfl, by simp [wellFormed, hk, hl, h76, h4]⟩
  obtain h | h | h := twoBits_cases (w.extractLsb' 5 2)
  · exact absurd h hsh
  · obtain hl | hl := BitVec.eq_zero_or_eq_one (w.extractLsb' 20 1) <;>
      obtain hb | hb := BitVec.eq_zero_or_eq_one (w.extractLsb' 22 1) <;> rw [decodeHdt, hl, hb, h] <;>
      exact reads_arm rfl (by simp [HdtRegOps.of, HdtImmOps.of, hk, hb, hl, h7, h, h4]) rfl
  obtain hl | hl := BitVec.eq_zero_or_eq_one (w.extractLsb' 20 1)
  · cases c with
    | a7 => obtain h | h := h <;> rw [decodeHdt, hl, h] <;> exact unknown (extract_within h 1 1 (by decide)) hl
    | a9 =>
      obtain hb | hb := BitVec.eq_zero_or_eq_one (w.extractLsb' 22 1) <;> obtain h | h := h <;> rw [decodeHdt, hl, hb, h] <;>
        exact reads_arm rfl (by simp [HdtRegOps.of, HdtImmOps.of, hk, hb, hl, h7, h, h4]) rfl
  · obtain hb | hb := BitVec.eq_zero_or_eq_one (w.extractLsb' 22 1) <;> obtain h | h := h <;> rw [decodeHdt, hl, hb, h] <;>
      exact reads_arm rfl (by simp [HdtRegOps.of, HdtImmOps.of, hk, hb, hl, h7, h, h4]) rfl

theorem decodeMisc_reads (hk : w.extractLsb' 23 5 = 2#5) (hs : w.extractLsb' 20 1 = 0#1)
    (h74 : ¬(w.extractLsb' 7 1 = 1#1 ∧ w.extractLsb' 4 1 = 1#1)) : Reads c (.arm w) (decodeMisc c w) := by
  have h20 {a : BitVec 1} (ha : w.extractLsb' 21 1 = a) : w.extractLsb' 20 2 = a ++ 0#1 :=
    extract_join ha hs rfl
  have hkey {op : BitVec 2} (hop : w.extractLsb' 21 2 = op) : w.extractLsb' 20 8 = 2#5 ++ op ++ 0#1 :=
    extract_join (extract_join hk hop rfl) hs rfl
  simp only [decodeMisc, BitVec.ofNat_eq_ofNat]
  split_ifs with h0 h21 hr hbx hblx hclz hq hsmul hx hbkpt h4
  · exact reads_arm rfl (by simp [MrsOps.of, hk, h20 h21, h0]) rfl
  · exact reads_arm rfl (by simp [MsrRegOps.of, hk, h20 (bit_eq_one h21), hr, h0]) rfl
  · exact reads_arm rfl (by simp [MsrRegOps.of, hk, h20 (bit_eq_one h21), bit_eq_one hr, h0]) rfl
  · obtain ⟨hop, h1⟩ := hbx
    exact reads_arm rfl (by simp [BxOps.of, hkey hop, h1]) rfl
  · obtain ⟨rfl, hop, h3⟩ := hblx
    exact reads_arm rfl (by simp [BxOps.of, hkey hop, h3]) rfl
  · obtain ⟨rfl, hop, h1⟩ := hclz
    exact reads_arm rfl (by simp [ClzOps.of, hkey hop, h1]) rfl
  · obtain ⟨rfl, h5⟩ := hq
    obtain h | h | h | h := twoBits_cases (w.extractLsb' 21 2) <;> rw [h] <;>
      exact reads_arm rfl (by simp [QOps.of, hk, h, hs, h5]) rfl
  · obtain ⟨rfl, h7, h4⟩ := hsmul
    obtain h | h | h | h := twoBits_cases (w.extractLsb' 21 2) <;> rw [h] <;>
      exact reads_arm rfl (by simp [SmulOps.of, SmulwOps.of, SmlalOps.of, hk, h, hs, h7, hx, h4]) rfl
  · obtain ⟨rfl, h7, h4⟩ := hsmul
    obtain h | h | h | h := twoBits_cases (w.extractLsb' 21 2) <;> rw [h] <;>
      exact reads_arm rfl (by simp [SmulOps.of, SmulwOps.of, SmlalOps.of, hk, h, hs, h7, bit_eq_one hx, h4]) rfl
  · obtain ⟨hop, h7⟩ := hbkpt
    exact reads_arm rfl (by simp [BkptOps.of, hkey hop, h7]) rfl
  · exact ⟨rfl, isMiscA_iff.2 ⟨hk, hs, h4, h0, fun ⟨hc, h7⟩ => hsmul ⟨hc, h7, h4⟩⟩⟩
  · have h4 := bit_eq_one h4
    refine ⟨rfl, isMiscB_iff.2 ⟨hk, hs, h4, bit_eq_zero fun h7 => h74 ⟨h7, h4⟩, ?_, ?_⟩⟩
    · rintro ⟨hop, h1 | h7⟩
      · exact hbx ⟨hop, h1⟩
      · exact hbkpt ⟨hop, h7⟩
    · rintro ⟨hc, h3 | h1 | h5⟩
      · exact hblx ⟨hc, h3⟩
      · exact hclz ⟨hc, h1⟩
      · exact hq ⟨hc, h5⟩

theorem decode000_reads (hk : w.extractLsb' 25 3 = 0#3) : Reads c (.arm w) (decode000 c w) := by
  have hs (hm : ¬(w.extractLsb' 23 5 = 2#5 ∧ w.extractLsb' 20 1 = 0#1)) (h : w.extractLsb' 23 2 = 2#2) :
      w.extractLsb' 20 1 = 1#1 :=
    bit_eq_one fun hs => hm ⟨extract_join hk h rfl, hs⟩
  simp only [decode000, BitVec.ofNat_eq_ofNat]
  split_ifs with h9 h74 hm h4
  · exact decodeMultiply_reads hk h9
  · obtain ⟨h7, h4⟩ := h74
    refine decodeHdt_reads hk h7 h4 fun hsh => h9 ?_
    exact extract_join (extract_join h7 hsh rfl) h4 rfl
  · exact decodeMisc_reads hm.1 hm.2 h74
  · exact decodeDpShiftImm_reads hk h4 (hs hm)
  · have h4 := bit_eq_one h4
    exact decodeDpShiftReg_reads hk (bit_eq_zero fun h7 => h74 ⟨h7, h4⟩) h4 (hs hm)

theorem decode001_reads (hk : w.extractLsb' 25 3 = 1#3) : Reads c (.arm w) (decode001 w) := by
  by_cases hm : w.extractLsb' 23 2 = 2 ∧ w.extractLsb' 20 1 = 0
  · rw [decode001, if_pos hm]
    obtain ⟨h23, hs⟩ := hm
    have hkey : w.extractLsb' 23 5 = 6#5 := extract_join hk h23 rfl
    obtain h21 | h21 := BitVec.eq_zero_or_eq_one (w.extractLsb' 21 1) <;> rw [h21] <;> have h20 := extract_join h21 hs rfl
    · exact ⟨rfl, by simpa [wellFormed, hkey] using h20⟩
    · obtain hr | hr := BitVec.eq_zero_or_eq_one (w.extractLsb' 22 1) <;> rw [hr] <;>
        exact reads_arm rfl (by simp [MsrImmOps.of, hkey, hr, h20]) rfl
  · rw [decode001, if_neg hm]
    exact decodeDpImm_reads hk fun h => bit_eq_one fun hs => hm ⟨h, hs⟩

/-- An LDRB that is not PLD on core A9 (R136). -/
theorem notPldFields_of_not_isPld {k : BitVec 3} (hk : w.extractLsb' 25 3 = k) (hk' : k.extractLsb' 1 2 = 1#2)
    (hb : w.extractLsb' 22 1 = 1#1) (hl : w.extractLsb' 20 1 = 1#1) (hpld : isPld c w = false) :
    notPldFields c (w.extractLsb' 28 4) (w.extractLsb' 24 1) (w.extractLsb' 21 1) = true :=
  notPldFields_iff.2 fun ⟨hc, hcond, hp, hw⟩ => Bool.eq_false_iff.1 hpld <| isPld_iff.2
    ⟨hc, hcond, (extract_within hk 1 2 (by decide)).trans hk', hp, extract_join (extract_join hb hw rfl) hl rfl⟩

theorem decodeSdtImm_reads (hk : w.extractLsb' 25 3 = 2#3) (hpld : isPld c w = false) :
    Reads c (.arm w) (decodeSdtImm w) := by
  by_cases ht : w.extractLsb' 24 1 = 0 ∧ w.extractLsb' 21 1 = 1
  · rw [decodeSdtImm, if_pos ht]
    obtain ⟨hp, hw⟩ := ht
    obtain hb | hb := BitVec.eq_zero_or_eq_one (w.extractLsb' 22 1) <;>
      obtain hl | hl := BitVec.eq_zero_or_eq_one (w.extractLsb' 20 1) <;> rw [hb, hl] <;>
      exact reads_arm rfl (by simp [SdtTImmOps.of, hk, hp, hb, hw, hl]) rfl
  rw [decodeSdtImm, if_neg ht]
  have ht := notT_iff.2 ht
  obtain hb | hb := BitVec.eq_zero_or_eq_one (w.extractLsb' 22 1) <;>
    obtain hl | hl := BitVec.eq_zero_or_eq_one (w.extractLsb' 20 1) <;> rw [hb, hl]
  case inr.inr =>
    exact reads_arm rfl (by simp [SdtImmOps.of, hk, hb, hl])
      (Bool.and_eq_true_iff.2 ⟨ht, notPldFields_of_not_isPld hk rfl hb hl hpld⟩)
  all_goals exact reads_arm rfl (by simp [SdtImmOps.of, hk, hb, hl]) ht

theorem decodeSdtReg_reads (hk : w.extractLsb' 25 3 = 3#3) (h4 : w.extractLsb' 4 1 = 0#1) (hpld : isPld c w = false) :
    Reads c (.arm w) (decodeSdtReg w) := by
  by_cases ht : w.extractLsb' 24 1 = 0 ∧ w.extractLsb' 21 1 = 1
  · rw [decodeSdtReg, if_pos ht]
    obtain ⟨hp, hw⟩ := ht
    obtain hb | hb := BitVec.eq_zero_or_eq_one (w.extractLsb' 22 1) <;>
      obtain hl | hl := BitVec.eq_zero_or_eq_one (w.extractLsb' 20 1) <;> rw [hb, hl] <;>
      exact reads_arm rfl (by simp [SdtTRegOps.of, hk, hp, hb, hw, hl, h4]) rfl
  rw [decodeSdtReg, if_neg ht]
  have ht := notT_iff.2 ht
  obtain hb | hb := BitVec.eq_zero_or_eq_one (w.extractLsb' 22 1) <;>
    obtain hl | hl := BitVec.eq_zero_or_eq_one (w.extractLsb' 20 1) <;> rw [hb, hl]
  case inr.inr =>
    exact reads_arm rfl (by simp [SdtRegOps.of, hk, hb, hl, h4])
      (Bool.and_eq_true_iff.2 ⟨ht, notPldFields_of_not_isPld hk rfl hb hl hpld⟩)
  all_goals exact reads_arm rfl (by simp [SdtRegOps.of, hk, hb, hl, h4]) ht

theorem decode111_reads (hk : w.extractLsb' 25 3 = 7#3) : Reads c (.arm w) (decode111 c w) := by
  simp only [decode111, BitVec.ofNat_eq_ofNat]
  have hkey {a : BitVec 1} (ha : w.extractLsb' 24 1 = a) : w.extractLsb' 24 4 = 7#3 ++ a :=
    extract_join hk ha rfl
  split_ifs with h24 h4 hcp hl
  · exact reads_arm rfl (by simp [SwiOps.of, hkey h24]) rfl
  all_goals have hkey := hkey (bit_eq_zero h24)
  · exact ⟨rfl, by simp [wellFormed, hkey, h4]⟩
  all_goals have h4 := bit_eq_one h4
  · obtain ⟨rfl, hcp, hop⟩ := hcp
    exact reads_arm rfl (by simp [CoprocOps.of, hkey, hop, hl, hcp, h4]) rfl
  · obtain ⟨rfl, hcp, hop⟩ := hcp
    exact reads_arm rfl (by simp [CoprocOps.of, hkey, hop, bit_eq_one hl, hcp, h4]) rfl
  · refine reads_arm rfl (by simp [CoprocOtherOps.of, hkey, h4]) ?_
    simpa [wellFormed, CoprocOtherOps.of, imp_iff_not_or, or_assoc] using hcp

theorem decodeArm_reads : Reads c (.arm w) (decodeArm c w) := by
  by_cases hblx : c = .a9 ∧ w.extractLsb' 28 4 = 15 ∧ w.extractLsb' 25 3 = 5
  · rw [decodeArm, if_pos hblx]
    obtain ⟨rfl, hcond, hk⟩ := hblx
    exact reads_arm rfl (by simp [BlxLabelOps.of, extract_join hcond hk]) rfl
  by_cases hpld : isPld c w = true
  · have hpld := isPld_iff.1 hpld
    rw [decodeArm, if_neg hblx, if_pos hpld]
    obtain ⟨rfl, hcond, h26, h24, h20⟩ := hpld
    exact reads_arm rfl (by simp [PldOps.of, extract_join hcond h26, h24, h20]) rfl
  rw [Bool.not_eq_true] at hpld
  rw [decodeArm_eq_decodeClass hblx hpld, decodeClass]
  obtain hk | hk | hk | hk | hk | hk | hk | hk := threeBits_cases (w.extractLsb' 25 3) <;> rw [hk]
  · exact decode000_reads hk
  · exact decode001_reads hk
  · exact decodeSdtImm_reads hk hpld
  · obtain h4 | h4 := BitVec.eq_zero_or_eq_one (w.extractLsb' 4 1) <;> rw [h4]
    · exact decodeSdtReg_reads hk h4 hpld
    · exact ⟨rfl, by simp [wellFormed, hk, h4, hpld]⟩
  · obtain hl | hl := BitVec.eq_zero_or_eq_one (w.extractLsb' 20 1) <;> rw [hl] <;>
      exact reads_arm rfl (by simp [BdtOps.of, hk, hl]) rfl
  · have hblx : notBlxFields c (w.extractLsb' 28 4) = true :=
      notBlxFields_iff.2 fun ⟨hc, hcond⟩ => hblx ⟨hc, hcond, hk⟩
    obtain hl | hl := BitVec.eq_zero_or_eq_one (w.extractLsb' 24 1) <;> rw [hl] <;>
      exact reads_arm rfl (by simp [BranchOps.of, hk, hl]) hblx
  · exact ⟨rfl, by simp [wellFormed, hk]⟩
  · exact decode111_reads hk

end

/-! The classes of Thumb half-words (R150). -/

section
variable {c : CoreId} {h : Half}

theorem decodeThumb000_reads (hk : h.extractLsb' 13 3 = 0#3) : Reads c (.thumb h) (decodeThumb000 h) := by
  obtain hop | hop | hop | hop := twoBits_cases (h.extractLsb' 11 2) <;> rw [decodeThumb000, hop]
  case inr.inr.inr =>
    obtain hi | hi | hi | hi := twoBits_cases (h.extractLsb' 9 2) <;> rw [hi] <;>
      exact reads_thumb rfl (by simp [TAddRegOps.of, TAddImmOps.of, extract_join (extract_join hk hop rfl) hi]) rfl
  all_goals exact reads_thumb rfl (by simp [TShiftOps.of, extract_join hk hop]) rfl

theorem decodeThumbAlu_reads (hk : h.extractLsb' 10 6 = 16#6) : Reads c (.thumb h) (decodeThumbAlu h) := by
  obtain hop | hop | hop | hop | hop | hop | hop | hop | hop | hop | hop | hop | hop | hop | hop | hop :=
      fourBits_cases (h.extractLsb' 6 4) <;> rw [decodeThumbAlu, hop] <;>
    exact reads_thumb rfl (by simp [TAluOps.of, extract_join hk hop]) rfl

theorem decodeThumbHi_reads (hk : h.extractLsb' 10 6 = 17#6) : Reads c (.thumb h) (decodeThumbHi c h) := by
  obtain hop | hop | hop | hop := twoBits_cases (h.extractLsb' 8 2) <;> rw [decodeThumbHi, hop]
  case inr.inr.inr =>
    have hkey := extract_join hk hop rfl
    obtain h7 | h7 := BitVec.eq_zero_or_eq_one (h.extractLsb' 7 1) <;> rw [h7]
    · exact reads_thumb rfl (by simp [TBxOps.of, extract_join hkey h7]) rfl
    · cases c <;> exact reads_thumb rfl (by simp [TBxOps.of, extract_join hkey h7]) rfl
  all_goals exact reads_thumb rfl (by simp [THiOps.of, extract_join hk hop]) rfl

theorem decodeThumb010_reads (hk : h.extractLsb' 13 3 = 2#3) : Reads c (.thumb h) (decodeThumb010 c h) := by
  simp only [decodeThumb010, BitVec.ofNat_eq_ofNat]
  split_ifs with h0 h1 hpc
  · exact decodeThumbAlu_reads (extract_join hk h0 rfl)
  · exact decodeThumbHi_reads (extract_join hk h1 rfl)
  · exact reads_thumb rfl (by simp [TImm8Ops.of, extract_join hk hpc]) rfl
  · have h12 : h.extractLsb' 12 1 = 1#1 := by
      refine bit_eq_one fun h12 => ?_
      obtain h11 | h11 := BitVec.eq_zero_or_eq_one (h.extractLsb' 11 1)
      · obtain h10 | h10 := BitVec.eq_zero_or_eq_one (h.extractLsb' 10 1)
        · exact h0 (extract_join (extract_join h12 h11 rfl) h10 rfl)
        · exact h1 (extract_join (extract_join h12 h11 rfl) h10 rfl)
      · exact hpc (extract_join h12 h11 rfl)
    have hkey := extract_join hk h12 rfl
    obtain hop | hop | hop | hop | hop | hop | hop | hop := threeBits_cases (h.extractLsb' 9 3) <;> rw [hop] <;>
      exact reads_thumb rfl (by simp [TRegOffOps.of, extract_join hkey hop]) rfl

theorem decodeThumb1011_reads (hk : h.extractLsb' 12 4 = 11#4) : Reads c (.thumb h) (decodeThumb1011 h) := by
  simp only [decodeThumb1011, BitVec.ofNat_eq_ofNat]
  split_ifs with h0 h7 h2 h11 h14
  · exact reads_thumb rfl (by simp [TAdjOps.of, extract_join (extract_join hk h0 rfl) h7]) rfl
  · exact reads_thumb rfl (by simp [TAdjOps.of, extract_join (extract_join hk h0 rfl) (bit_eq_one h7)]) rfl
  · exact reads_thumb rfl (by simp [TPushPopOps.of, extract_join (extract_join hk h11 rfl) h2]) rfl
  · exact reads_thumb rfl (by simp [TPushPopOps.of, extract_join (extract_join hk (bit_eq_one h11) rfl) h2]) rfl
  · exact reads_thumb rfl (by simp [TCommentOps.of, extract_join hk h14]) rfl
  · exact ⟨rfl, by simp [wellFormed, hk, h0, h2, h14]⟩

theorem decodeThumb1101_reads (hk : h.extractLsb' 12 4 = 13#4) : Reads c (.thumb h) (decodeThumb1101 h) := by
  simp only [decodeThumb1101, BitVec.ofNat_eq_ofNat]
  split_ifs with h14 h15
  · exact ⟨rfl, by simp [wellFormed, extract_join hk h14]⟩
  · exact reads_thumb rfl (by simp [TCommentOps.of, extract_join hk h15]) rfl
  · exact reads_thumb rfl (by simp [TCondOps.of, hk]) (decide_eq_true (condition_lt h14 h15))

theorem decodeThumb111_reads (hk : h.extractLsb' 13 3 = 7#3) : Reads c (.thumb h) (decodeThumb111 c h) := by
  obtain hop | hop | hop | hop := twoBits_cases (h.extractLsb' 11 2) <;> rw [decodeThumb111, hop]
  case inr.inl =>
    cases c
    · exact ⟨rfl, by simp [wellFormed, extract_join hk hop]⟩
    · exact reads_thumb rfl (by simp [TBranchOps.of, extract_join hk hop]) rfl
  all_goals exact reads_thumb rfl (by simp [TBranchOps.of, extract_join hk hop]) rfl

theorem decodeThumb_reads : Reads c (.thumb h) (decodeThumb c h) := by
  obtain hk | hk | hk | hk | hk | hk | hk | hk := threeBits_cases (h.extractLsb' 13 3) <;> rw [decodeThumb, hk]
  · exact decodeThumb000_reads hk
  · obtain hop | hop | hop | hop := twoBits_cases (h.extractLsb' 11 2) <;> rw [hop] <;>
      exact reads_thumb rfl (by simp [TImm8Ops.of, extract_join hk hop]) rfl
  · exact decodeThumb010_reads hk
  · obtain hop | hop | hop | hop := twoBits_cases (h.extractLsb' 11 2) <;> rw [hop] <;>
      exact reads_thumb rfl (by simp [TImmOffOps.of, extract_join hk hop]) rfl
  · obtain hop | hop | hop | hop := twoBits_cases (h.extractLsb' 11 2) <;> rw [hop] <;>
      exact reads_thumb rfl (by simp [TImmOffOps.of, TImm8Ops.of, extract_join hk hop]) rfl
  · obtain h12 | h12 := BitVec.eq_zero_or_eq_one (h.extractLsb' 12 1) <;> rw [h12]
    · obtain h11 | h11 := BitVec.eq_zero_or_eq_one (h.extractLsb' 11 1) <;> rw [h11] <;>
        exact reads_thumb rfl (by simp [TImm8Ops.of, extract_join (extract_join hk h12 rfl) h11]) rfl
    · exact decodeThumb1011_reads (extract_join hk h12 rfl)
  · obtain h12 | h12 := BitVec.eq_zero_or_eq_one (h.extractLsb' 12 1) <;> rw [h12]
    · obtain h11 | h11 := BitVec.eq_zero_or_eq_one (h.extractLsb' 11 1) <;> rw [h11] <;>
        exact reads_thumb rfl (by simp [TBlockOps.of, extract_join (extract_join hk h12 rfl) h11]) rfl
    · exact decodeThumb1101_reads (extract_join hk h12 rfl)
  · exact decodeThumb111_reads hk

end

/-- Settles O2: by the decoder's own case split, whose conditions are the fields that a row fixes. -/
theorem encodeDecode : Obligations.EncodeDecode := by
  intro c code
  cases code with
  | arm w => exact decodeArm_reads
  | thumb h => exact decodeThumb_reads

end Sys2Proof
end

section
/-! PROOFS. The condition table and the failed condition (O12, O13). -/

namespace Sys2Proof.Machine

/-- Settles O12: each row is its Boolean test read as a proposition. -/
theorem conditionTable : Obligations.ConditionTable := by
  intro k
  refine ⟨.rfl, ?ne, .rfl, ?cc, .rfl, ?pl, .rfl, ?vc, ?hi, ?ls, ?ge, ?lt, ?gt, ?le, rfl, rfl⟩
  case ne | cc | pl | vc => exact .of_eq (Bool.not_eq_true' _)
  case ge => exact beq_iff_eq
  case lt => exact bne_iff_ne
  case hi | ls | gt | le => simp [condPassed]

theorem conditional_failed {cond : BitVec 4} {s : State} (h : condPassed cond s.cur = false) (body : Res State) :
    conditional cond s body = .next s := if_neg (by simp [h])

/-- An instruction with a condition field runs under that condition (R182): the rows without one leave no case, and every other
row's meaning is a `conditional` on its field. -/
theorem exec_of_armCond {i : Instr} {cond : BitVec 4} (h : armCond i = some cond) (s : State) :
    ∃ body, exec i s = conditional cond s body := by
  cases i
  all_goals cases h
  all_goals exact ⟨_, rfl⟩

/-- Settles O13: under a failed condition `conditional` drops the body; the other three have a test of their own. -/
theorem failedCondition : Obligations.FailedCondition := by
  refine ⟨fun i cond s hi hc => ?_, fun o s hc => if_neg (by simp [hc]), fun _ _ => rfl, fun o s hr => ?_⟩
  · obtain ⟨body, e⟩ := exec_of_armCond hi s
    rw [e, conditional_failed hc]
  · show execBlxLabel o s = .next s
    rw [execBlxLabel, hr]

end Sys2Proof.Machine
end

section
/-! PROOFS. The run loop of a core (O10), the interrupt test at its boundary (O11) and one step of the core (O9). -/

namespace Sys2Proof.Machine

/-! The owner's call of `run` (R6, R170). -/

section
variable {c : CoreId} {target : Dword} {rest : List OwnerCall} {s : State}

theorem step_of_run (hf : s.fault = none) (ho : s.owner = .run c target :: rest) : step s = runOnce c target s := by
  simp only [step, hf, ownerStep, ho]

theorem pop_of_owner {call : OwnerCall} (ho : s.owner = call :: rest) : s.pop = { s with owner := rest } := by
  simp only [State.pop, ho, List.tail_cons]

/-! The four cases of one iteration (R170, R171, R576). -/

theorem runOnce_unbooted (hb : (s.core c).booted = false) : runOnce c target s = .next s.pop := if_pos hb

theorem runOnce_reached (hb : (s.core c).booted = true) (ht : target.toNat ≤ (s.core c).timestamp.toNat) :
    runOnce c target s = .next s.pop := by
  simp only [runOnce, hb, ht, if_true, Bool.true_eq_false, if_false]

theorem runOnce_halted (hb : (s.core c).booted = true) (ht : (s.core c).timestamp.toNat < target.toNat)
    (hh : (s.core c).halted = true) :
    runOnce c target s = .next (s.setCore c { s.core c with timestamp := target }).pop := by
  simp only [runOnce, hb, hh, Nat.not_le_of_lt ht, if_true, Bool.true_eq_false, if_false]

theorem runOnce_runnable (hb : (s.core c).booted = true) (ht : (s.core c).timestamp.toNat < target.toNat)
    (hh : (s.core c).halted = false) :
    runOnce c target s = Res.bind (boundary { s with running := c }) coreStep := by
  simp only [runOnce, hb, hh, Nat.not_le_of_lt ht, Bool.true_eq_false, Bool.false_eq_true, if_false]

end

/-- Settles O10: the first three cases of an iteration. -/
theorem runLoopEnds : Obligations.RunLoopEnds := by
  intro c target rest s hf ho
  rw [step_of_run hf ho, ← pop_of_owner ho]
  refine ⟨runOnce_unbooted, runOnce_reached, fun hb ht hh => ?_⟩
  rw [runOnce_halted hb ht hh, pop_of_owner ((setCore_owner ..).trans ho)]

/-! The boundary (R172). -/

theorem boundary_taken {s : State} (h : s.cur.irqLatch = true ∧ s.cur.iBit = false) : boundary s = raiseIrq s :=
  if_pos (by simp [h])

theorem boundary_none {s : State} (h : (s.cur.irqLatch && !s.cur.iBit) = false) : boundary s = .next s :=
  if_neg (by simp [h])

/-- Taking an exception costs no time (R172, R502): neither the bank swap nor the jump touches the timestamp. -/
theorem timestamp_enterException {m v lr : Word} {s t : State} (e : enterException m v lr s = .next t) :
    t.running = s.running ∧ t.cur.timestamp = s.cur.timestamp := by
  obtain ⟨u, hu, e⟩ := bind_eq_next.1 e
  obtain ⟨new, -, rfl⟩ := switchMode_spec hu
  have ho := ordinary_branchTo e
  obtain ⟨-, -, -, -, -, hswap, -⟩ := swapBanks_frame s.cur.bank new s.cur
  exact ⟨by simpa using ho.running, by simpa [hswap] using ho.timestamp⟩

/-- Settles O11: a runnable core's iteration is the boundary test, then a step of the core. -/
theorem irqAtBoundary : Obligations.IrqAtBoundary := by
  intro c target rest s hf ho hb ht hh
  rw [step_of_run hf ho, runOnce_runnable hb ht hh]
  refine ⟨fun hi => ?taken, fun hi => ?none, fun t e => ?time⟩
  case taken => rw [boundary_taken (s := { s with running := c }) hi]
  case none =>
    have hi' : ((s.core c).irqLatch && !(s.core c).iBit) = false := by simpa using hi
    rw [boundary_none (s := { s with running := c }) hi', bind_next]
  case time =>
    obtain ⟨hr, htime⟩ := timestamp_enterException e
    have hc : t.core c = t.cur := congrArg t.core hr.symm
    rw [hc, htime]
    rfl

/-! One step of the core (R173). -/

/-- A prefetch of a word that reads without side effect moves the slots up and does nothing else. -/
theorem prefetch_plain {w : Width} {s : State} {p : Word} (h : plainRead s.running (s.x 15) w s = some p) :
    prefetch w s = .next { s.setPipe s.cur.pipe1 p with branched := false } := by
  have hl : load (s.x 15) w (s.setPipe s.cur.pipe1 s.cur.pipe1) = .next (p, s.setPipe s.cur.pipe1 s.cur.pipe1) :=
    memRead_plain (by simpa using h)
  rw [prefetch, hl]
  simp [State.setPipe]

theorem coreStep_plain {s : State} {p : Word} (h : plainRead s.running (s.x 15) (fetchWidth s.cur.t) s = some p) :
    coreStep s = Res.bind (exec (decode s.running (nextCode s.cur)) { s.setPipe s.cur.pipe1 p with branched := false })
      fun u => .next (addCycles (cyclesOf s.par s.running (nextCode s.cur) (decode s.running (nextCode s.cur)) s.cur)
        (advance (fetchStep s.cur.t) u)) := by
  have hp : prefetch (if s.cur.t then .w16 else .w32) s = .next { s.setPipe s.cur.pipe1 p with branched := false } :=
    prefetch_plain h
  rw [coreStep, hp]
  rfl

/-- An empty cycle table costs every instruction one cycle (R178). -/
theorem cyclesOf_nil {par : Parameters} (h : par.cycles = []) (c : CoreId) (code : Code) (i : Instr) (k : CoreState) :
    cyclesOf par c code i k = 1 := by
  simp only [cyclesOf, h, List.find?_nil, ite_self]

/-- Settles O9: a runnable core with no interrupt to take steps at once, and its prefetch is a plain read. -/
theorem stepRunsDecodedInstruction : Obligations.StepRunsDecodedInstruction := by
  intro c target rest s p hf ho hb ht hh hi hp
  refine ⟨?_, fun hn => cyclesOf_nil hn ..⟩
  rw [step_of_run hf ho, runOnce_runnable hb ht hh, boundary_none (s := { s with running := c }) hi, bind_next]
  exact coreStep_plain (s := { s with running := c }) hp

end Sys2Proof.Machine
end

section
/-! PROOFS. The barrel shifter (O37, O38). The arithmetic stands on `shiftReg`, at every amount from 1 to 255; an immediate shift is
a register shift by its amount, with 32 for the field 0 of LSR and ASR (R203, R204). -/

namespace Sys2Proof.Machine

/-! A bit of a word as a bit of its number. -/

theorem getLsbD_eq_decide (v : Word) (j : Nat) : v.getLsbD j = decide (v.toNat / 2 ^ j % 2 = 1) := by
  rw [← BitVec.testBit_toNat, Nat.testBit_eq_decide_div_mod_eq]

theorem getLsbD_zero_eq_decide_toInt (v : Word) : v.getLsbD 0 = decide (v.toInt % 2 = 1) := by
  rw [getLsbD_eq_decide, BitVec.toInt_eq_toNat_cond]
  apply decide_eq_decide.2
  split <;> omega

/-! LSL (R202, R206). -/

theorem toNat_shiftLeft_eq_mul (v : Word) (n : Nat) : (v <<< n).toNat = v.toNat * 2 ^ n % 2 ^ 32 := by
  rw [BitVec.toNat_shiftLeft, Nat.shiftLeft_eq]

/-- The last bit a left shift by up to 32 moves out. -/
theorem getLsbD_of_shiftLeft (v : Word) {n : Nat} (h : n ≤ 32) :
    v.getLsbD (32 - n) = decide (v.toNat * 2 ^ n / 2 ^ 32 % 2 = 1) := by
  have split32 : 2 ^ 32 = 2 ^ (32 - n) * 2 ^ n := by rw [← pow_add, Nat.sub_add_cancel h]
  rw [getLsbD_eq_decide, split32, Nat.mul_div_mul_right _ _ (Nat.two_pow_pos n)]

/-- A product by `2 ^ n` with `32 < n` has neither a low word nor a bit 32. -/
theorem mul_two_pow_of_gt (a : Nat) {n : Nat} (h : 32 < n) :
    a * 2 ^ n % 2 ^ 32 = 0 ∧ a * 2 ^ n / 2 ^ 32 % 2 = 0 := by
  obtain ⟨k, rfl⟩ : ∃ k, n = k + 1 + 32 := ⟨n - 33, by omega⟩
  rw [pow_add _ (k + 1), ← Nat.mul_assoc, Nat.mul_div_cancel _ (Nat.two_pow_pos 32), pow_succ, ← Nat.mul_assoc]
  exact ⟨Nat.mul_mod_left _ _, Nat.mul_mod_left _ _⟩

theorem shiftReg_lsl {n : Byte} (h : n ≠ 0) (v : Word) (c : Bool) :
    (shiftReg .lsl n v c).value.toNat = v.toNat * 2 ^ n.toNat % 2 ^ 32 ∧
    (shiftReg .lsl n v c).carry = decide (v.toNat * 2 ^ n.toNat / 2 ^ 32 % 2 = 1) := by
  have h0 : n.toNat ≠ 0 := BitVec.toNat_ne.1 h
  simp only [shiftReg, if_neg h0]
  rcases Nat.lt_trichotomy n.toNat 32 with hlt | heq | hgt
  · rw [if_pos hlt]
    exact ⟨toNat_shiftLeft_eq_mul v _, getLsbD_of_shiftLeft v hlt.le⟩
  · have hbit := getLsbD_of_shiftLeft v (n := 32) (by decide)
    rw [if_neg (by omega), heq, ← hbit]
    simp
  · obtain ⟨hlow, hbit⟩ := mul_two_pow_of_gt v.toNat hgt
    rw [if_neg (by omega), hlow, hbit]
    simp [hgt.ne']

/-! LSR (R203, R206). -/

theorem shiftReg_lsr {n : Byte} (h : n ≠ 0) (v : Word) (c : Bool) :
    (shiftReg .lsr n v c).value.toNat = v.toNat / 2 ^ n.toNat ∧
    (shiftReg .lsr n v c).carry = decide (v.toNat / 2 ^ (n.toNat - 1) % 2 = 1) := by
  have h0 : n.toNat ≠ 0 := BitVec.toNat_ne.1 h
  simp only [shiftReg, if_neg h0, ← getLsbD_eq_decide]
  by_cases hlt : n.toNat < 32
  · rw [if_pos hlt]
    exact ⟨by rw [BitVec.toNat_ushiftRight, Nat.shiftRight_eq_div_pow], rfl⟩
  · rw [if_neg hlt]
    have hbig : v.toNat < 2 ^ n.toNat := v.isLt.trans_le (Nat.pow_le_pow_right (by decide) (by omega))
    refine ⟨(Nat.div_eq_of_lt hbig).symm, ?_⟩
    by_cases heq : n.toNat = 32
    · simp [heq]
    · rw [BitVec.getLsbD_of_ge v (n.toNat - 1) (by omega)]
      simp [heq]

/-! ASR (R204, R206). -/

/-- An arithmetic shift by 31 or more leaves the sign alone. -/
theorem sshiftRight_of_ge (v : Word) {n : Nat} (h : 31 ≤ n) : v.sshiftRight n = v.sshiftRight 31 := by
  apply BitVec.eq_of_getLsbD_eq
  intro j hj
  rw [BitVec.getLsbD_sshiftRight, BitVec.getLsbD_sshiftRight]
  by_cases hj0 : j = 0
  · subst hj0
    by_cases hn : n = 31
    · rw [hn]
    · simp [BitVec.msb_eq_getLsbD_last, show ¬ n < 32 by omega]
  · simp [show ¬ n + j < 32 by omega, show ¬ 31 + j < 32 by omega]

theorem toInt_sshiftRight_eq_div (v : Word) (n : Nat) : (v.sshiftRight n).toInt = v.toInt / 2 ^ n := by
  rw [BitVec.toInt_sshiftRight, Int.shiftRight_eq_div_pow]
  push_cast
  rfl

/-- The last bit an arithmetic shift by `n + 1` moves out is the sign from bit 31 on. -/
theorem getLsbD_of_sshiftRight (v : Word) (n : Nat) :
    decide (v.toInt / 2 ^ n % 2 = 1) = if n < 32 then v.getLsbD n else v.getLsbD 31 := by
  rw [← toInt_sshiftRight_eq_div, ← getLsbD_zero_eq_decide_toInt, BitVec.getLsbD_sshiftRight]
  simp [BitVec.msb_eq_getLsbD_last]

theorem shiftReg_asr {n : Byte} (h : n ≠ 0) (v : Word) (c : Bool) :
    (shiftReg .asr n v c).value.toInt = v.toInt / 2 ^ n.toNat ∧
    (shiftReg .asr n v c).carry = decide (v.toInt / 2 ^ (n.toNat - 1) % 2 = 1) := by
  have h0 : n.toNat ≠ 0 := BitVec.toNat_ne.1 h
  simp only [shiftReg, if_neg h0, ← toInt_sshiftRight_eq_div v n.toNat, getLsbD_of_sshiftRight]
  by_cases hlt : n.toNat < 32
  · rw [if_pos hlt, if_pos (by omega)]
    exact ⟨rfl, rfl⟩
  · rw [if_neg hlt]
    refine ⟨by rw [sshiftRight_of_ge v (n := n.toNat) (by omega)], ?_⟩
    by_cases heq : n.toNat = 32
    · simp [heq]
    · rw [if_neg (by omega)]

/-! ROR (R205, R206). -/

theorem getLsbD_ror32 (v : Word) (n : Nat) {j : Nat} (h : j < 32) : (ror32 v n).getLsbD j = v.getLsbD ((j + n) % 32) := by
  rw [ror32, BitVec.getLsbD_rotateRight]
  by_cases hw : j < 32 - n % 32
  · have : (j + n) % 32 = n % 32 + j := by omega
    simp [hw, this]
  · have : (j + n) % 32 = j - (32 - n % 32) := by omega
    simp [hw, h, this]

theorem shiftReg_ror {n : Byte} (h : n ≠ 0) (v : Word) (c : Bool) :
    (∀ j < 32, (shiftReg .ror n v c).value.getLsbD j = v.getLsbD ((j + n.toNat) % 32)) ∧
    (shiftReg .ror n v c).carry = v.getLsbD ((n.toNat - 1) % 32) := by
  have h0 : n.toNat ≠ 0 := BitVec.toNat_ne.1 h
  simp only [shiftReg, if_neg h0]
  by_cases hz : n.toNat % 32 = 0
  · rw [if_pos hz, show (n.toNat - 1) % 32 = 31 by omega]
    exact ⟨fun j hj => by rw [show (j + n.toNat) % 32 = j by omega], rfl⟩
  · rw [if_neg hz, show n.toNat % 32 - 1 = (n.toNat - 1) % 32 by omega]
    exact ⟨fun j hj => by rw [getLsbD_ror32 v _ hj, Nat.add_mod_mod], rfl⟩

/-- RRX: the old carry comes in at the top (R205). -/
theorem toNat_rrx (v : Word) (c : Bool) :
    ((BitVec.ofBool c).setWidth 32 <<< 31 ||| v >>> 1 : Word).toNat = v.toNat / 2 + c.toNat * 2 ^ 31 := by
  have hlt : v.toNat / 2 < 2 ^ 31 := by omega
  have htop : ((BitVec.ofBool c).setWidth 32 <<< 31 : Word).toNat = 2 ^ 31 * c.toNat := by cases c <;> rfl
  rw [BitVec.toNat_or, htop, BitVec.toNat_ushiftRight, Nat.shiftRight_eq_div_pow, pow_one,
    ← Nat.two_pow_add_eq_or_of_lt hlt, Nat.mul_comm, Nat.add_comm]

/-! An immediate amount as a register's (R202 to R205). -/

/-- The amount of an immediate shift as a register's low byte: the field 0 stands for 32, as it does for LSR and ASR. -/
def immAmount (n : BitVec 5) : Byte := if n = 0 then 32 else n.setWidth 8

theorem toNat_immAmount (n : BitVec 5) : (immAmount n).toNat = if n = 0 then 32 else n.toNat := by
  revert n; decide

theorem immAmount_ne_zero (n : BitVec 5) : immAmount n ≠ 0 := by
  revert n; decide

/-- Another field than 0 shifts as a register's low byte does. -/
theorem shiftImm_of_ne_zero {n : BitVec 5} (h : n ≠ 0) (ty : ShiftType) (v : Word) (c : Bool) :
    shiftImm ty n v c = shiftReg ty (immAmount n) v c := by
  have hlt : n.toNat < 32 := n.isLt
  have h0 : n.toNat ≠ 0 := BitVec.toNat_ne.1 h
  have hn : (immAmount n).toNat = n.toNat := by rw [toNat_immAmount, if_neg h]
  cases ty <;> simp [shiftImm, shiftReg, hn, h0, hlt, Nat.mod_eq_of_lt hlt]

theorem shiftImm_lsl (n : BitVec 5) (v : Word) (c : Bool) :
    (shiftImm .lsl n v c).value.toNat = v.toNat * 2 ^ n.toNat % 2 ^ 32 ∧
    (shiftImm .lsl n v c).carry = if n = 0 then c else decide (v.toNat * 2 ^ n.toNat / 2 ^ 32 % 2 = 1) := by
  by_cases h : n = 0
  · subst h
    exact ⟨by simp [shiftImm, Nat.mod_eq_of_lt v.isLt], rfl⟩
  · have harith := shiftReg_lsl (immAmount_ne_zero n) v c
    rw [toNat_immAmount, if_neg h] at harith
    rw [if_neg h, shiftImm_of_ne_zero h]
    exact harith

theorem shiftImm_lsr (n : BitVec 5) (v : Word) (c : Bool) : shiftImm .lsr n v c = shiftReg .lsr (immAmount n) v c := by
  by_cases h : n = 0
  · subst h; rfl
  · exact shiftImm_of_ne_zero h _ _ _

theorem shiftImm_asr (n : BitVec 5) (v : Word) (c : Bool) : shiftImm .asr n v c = shiftReg .asr (immAmount n) v c := by
  by_cases h : n = 0
  · subst h; rfl
  · exact shiftImm_of_ne_zero h _ _ _

theorem shiftImm_ror {n : BitVec 5} (h : n ≠ 0) (v : Word) (c : Bool) :
    (∀ j < 32, (shiftImm .ror n v c).value.getLsbD j = v.getLsbD ((j + n.toNat) % 32)) ∧
    (shiftImm .ror n v c).carry = v.getLsbD (n.toNat - 1) := by
  have hlt : n.toNat < 32 := n.isLt
  have harith := shiftReg_ror (immAmount_ne_zero n) v c
  rw [toNat_immAmount, if_neg h, Nat.mod_eq_of_lt (show n.toNat - 1 < 32 by omega)] at harith
  rw [shiftImm_of_ne_zero h]
  exact harith

/-- The rotated immediate, bit by bit (R201). -/
theorem getLsbD_operandImm (x : ImmOperand) (k : CoreState) {j : Nat} (h : j < 32) :
    (operandImm x k).value.getLsbD j = x.imm8.getLsbD ((j + 2 * x.rotate.toNat) % 32) := by
  show (ror32 (x.imm8.setWidth 32) (2 * x.rotate.toNat)).getLsbD j = _
  rw [getLsbD_ror32 _ _ h, BitVec.getLsbD_setWidth]
  simp [Nat.mod_lt]

/-- Settles O38: amount 0 is the shifter's first test, and the four types follow their arithmetic at every other. -/
theorem shiftByRegister : Obligations.ShiftByRegister :=
  ⟨fun n v c => ⟨fun h ty => by rw [h]; rfl,
    fun h => ⟨shiftReg_lsl h v c, shiftReg_lsr h v c, shiftReg_asr h v c, shiftReg_ror h v c⟩⟩,
   fun _ _ => rfl⟩

/-- Settles O37: LSR, ASR and ROR through the register shift, RRX and the rotated immediate apart. -/
theorem shiftByImmediate : Obligations.ShiftByImmediate := by
  refine ⟨fun n v c => ⟨shiftImm_lsl n v c, ?right, fun h => shiftImm_ror h v c, ?rrx⟩,
    fun x k => ⟨fun j hj => getLsbD_operandImm x k hj, rfl⟩⟩
  case right =>
    rw [shiftImm_lsr, shiftImm_asr, ← toNat_immAmount]
    obtain ⟨hlv, hlc⟩ := shiftReg_lsr (immAmount_ne_zero n) v c
    obtain ⟨hav, hac⟩ := shiftReg_asr (immAmount_ne_zero n) v c
    exact ⟨hlv, hlc, hav, hac⟩
  case rrx =>
    rintro rfl
    exact ⟨toNat_rrx v c, (getLsbD_eq_decide v 0).trans (by simp)⟩

end Sys2Proof.Machine
end

section
/-! PROOFS. Data processing with a destination (O39, O40), the exception return (O33) and the compares (O41): `exec_of_dpValue`
and `exec_of_compareOp` say what runs, and the rest is the write of the result. -/

namespace Sys2Proof.Machine

/-! The head and the result of the two families with a destination. -/

theorem dpValue_of_logicalOp {i : Instr} {h : DpHead} {o : Operand2} {f : Word → Word → Word} (e : logicalOp i = some (h, o, f))
    (s : State) :
    dpValue i s = some (h, f (o.first h.rn s.cur) (o.second s.cur).value,
      logicalFlags (f (o.first h.rn s.cur) (o.second s.cur).value) (o.second s.cur).carry s) := by
  simp only [dpValue, e]

/-- No instruction is both logical and arithmetic. -/
theorem logicalOp_of_arithmeticOp {i : Instr} {p : DpHead × Operand2 × (Word → Word → Bool → Word × Flags)}
    (e : arithmeticOp i = some p) : logicalOp i = none := by
  cases i
  all_goals cases e
  all_goals rfl

theorem dpValue_of_arithmeticOp {i : Instr} {h : DpHead} {o : Operand2} {f : Word → Word → Bool → Word × Flags}
    (e : arithmeticOp i = some (h, o, f)) (s : State) :
    dpValue i s = some (h, f (o.first h.rn s.cur) (o.second s.cur).value s.cur.c) := by
  simp only [dpValue, logicalOp_of_arithmeticOp e, e]

/-! The write of a result that is not an exception return (R200, R211). -/

@[simp] theorem setFlags_q (k : CoreState) (f : Flags) : (k.setFlags f).q = k.q := by
  unfold CoreState.q CoreState.setFlags; rw [getLsbD_setFlags]; rfl

theorem dpWrite_plain {h : DpHead} (hd : h.rd ≠ 15) (hs : h.s ≠ 1) (a : Alu) (s : State) :
    dpWrite h a s = .next (s.setX h.rd a.result) := by
  rw [dpWrite, if_neg hd, if_neg hs]

theorem dpWrite_flags {h : DpHead} (hd : h.rd ≠ 15) (hs : h.s = 1) (a : Alu) (s : State) :
    dpWrite h a s = .next ((s.setX h.rd a.result).setFlags a.flags) := by
  rw [dpWrite, if_neg hd, if_pos hs]

theorem dpWrite_jump {h : DpHead} (hd : h.rd = 15) (hs : h.s ≠ 1) (a : Alu) (s : State) :
    dpWrite h a s = branchTo a.result s := by
  have h0 : h.s = 0 := (BitVec.eq_zero_or_eq_one h.s).resolve_right hs
  rw [dpWrite, if_pos hd, if_pos h0]

/-- A data-processing instruction with a destination completes with its result, unless it is an exception return: a register
write, a register and a flag write, or a jump. -/
theorem dpResult_completes {i : Instr} {h : DpHead} {r : Word} {f : Flags} {s : State} (e : dpValue i s = some (h, r, f))
    (hc : condPassed h.cond s.cur = true) (hn : ¬(h.rd = 15 ∧ h.s = 1)) : (dpResult h r f s).Completes i s := by
  unfold Result.Completes
  rw [exec_of_dpValue e, conditional_passed hc]
  refine ⟨fun hd => ?_, fun hd p0 p1 hf => ?_⟩
  · by_cases hs : h.s = 1
    · refine ⟨_, dpWrite_flags hd hs _ _, ?_⟩
      simp only [dpResult, if_pos hs]
      refine ⟨?_, flags_setFlags _ _, ?_, (frame_setX s h.rd r).trans (frame_setFlags _ f)⟩
      · rw [x_setFlags, x_setX_same]
      · rw [cur_setFlags, setFlags_q, cur_setX]; rfl
    · refine ⟨_, dpWrite_plain hd hs _ _, ?_⟩
      simp only [dpResult, if_neg hs]
      refine ⟨x_setX_same _ _ _, ?_, ?_, frame_setX s h.rd r⟩ <;> rw [cur_setX] <;> rfl
  · have hs : h.s ≠ 1 := fun hs => hn ⟨hd, hs⟩
    obtain ⟨hflags, hq⟩ := flags_refilled s.cur.t r p0 p1 s
    refine ⟨_, (dpWrite_jump hd hs _ _).trans (branchTo_fetches hf), jumpedTo_refilled _ _ _ _ _ rfl, ?_⟩
    simp only [dpResult, if_neg hs]
    exact ⟨hflags, hq, jumpFrame_refilled _ _ _ _ _⟩

/-- Settles O39: the logical family is one of the two `dpValue` names. -/
theorem logicalResult : Obligations.LogicalResult :=
  fun _ _ _ _ s e hc hn => dpResult_completes (dpValue_of_logicalOp e s) hc hn

/-- Settles O40: the arithmetic family is the other. -/
theorem arithmeticResult : Obligations.ArithmeticResult :=
  fun _ _ _ _ s e hc hn => dpResult_completes (dpValue_of_arithmeticOp e s) hc hn

/-! The compares. -/

/-- A compare runs as its condition and the write of the flags (R213). -/
theorem exec_of_compareOp {i : Instr} {h : CmpHead} {o : Operand2} {f : Word → Shifted → State → Flags}
    (e : compareOp i = some (h, o, f)) (s : State) :
    exec i s = conditional h.cond s (.next (s.setFlags (f (o.first h.rn s.cur) (o.second s.cur) s))) := by
  cases i with
  | tstImm h x | tstShiftImm h x | tstShiftReg h x | teqImm h x | teqShiftImm h x | teqShiftReg h x => cases e; rfl
  | cmpImm h x | cmpShiftImm h x | cmpShiftReg h x =>
    cases e; exact congrArg (fun a => conditional h.cond s (dpCompare a s)) (alu_diff _ _ _)
  | cmnImm h x | cmnShiftImm h x | cmnShiftReg h x =>
    cases e; exact congrArg (fun a => conditional h.cond s (dpCompare a s)) (alu_sum _ _ _)
  | _ => cases e

/-- Settles O41: the write of the flags has its frame. -/
theorem compareResult : Obligations.CompareResult := fun _ _ _ _ s e hc =>
  ⟨_, (exec_of_compareOp e s).trans (conditional_passed hc _), flags_setFlags _ _, frame_setFlags _ _⟩

/-! The exception return (R212). -/

/-- Instruction fetches depend on the executing core through its page table alone (R107). -/
theorem fetches_setCur {thumb : Bool} {target p0 p1 : Word} {s : State} {k : CoreState}
    (h : k.pageTable = s.cur.pageTable) : Fetches thumb target (s.setCur k) p0 p1 ↔ Fetches thumb target s p0 p1 := by
  simp only [Fetches, setCur_running, plainRead_setCur _ _ _ s k h]

/-- The executing core after the SPSR `v` has come back to the CPSR, before the jump. -/
def CoreState.restored (v : Word) (new : Bank) (k : CoreState) : CoreState :=
  { swapBanks k.bank new k with cpsr := v }.updateLatch

theorem returnFromException_eq {s : State} {v : Word} {new : Bank} (hv : s.cur.spsr.get s.cur.bank = some v)
    (hb : bankOf (v.extractLsb' 0 5) = some new) (r : Word) :
    returnFromException r s = branchTo r (s.setCur (s.cur.restored v new)) := by
  have hr : readSpsr s = .next v := by simp only [readSpsr, hv]
  rw [returnFromException, hr, bind_next, writeCpsr_valid hb, bind_next]
  rfl

/-- Settles O33: the jump starts from the restored core, whose instruction set is the saved one. -/
theorem exceptionReturn : Obligations.ExceptionReturn := by
  intro i h r v p0 p1 f new s e hd hs hc hv hb hf
  obtain ⟨-, hspsr, -, -, -, -, -, -, -, -, -, -, htable, -⟩ := swapBanks_frame s.cur.bank new s.cur
  let u : State := s.setCur (s.cur.restored v new)
  have hcur : u.cur = s.cur.restored v new := cur_setCur _ _
  have ht : u.cur.t = v.getLsbD 5 := by rw [hcur]; rfl
  have hfetch : Fetches u.cur.t r u p0 p1 := by rw [ht]; exact (fetches_setCur (k := s.cur.restored v new) htable).2 hf
  have run : exec i s = .next (u.refilled (v.getLsbD 5) r p0 p1) := by
    rw [exec_of_dpValue e, conditional_passed hc, dpWrite_exceptionReturn hd hs, returnFromException_eq hv hb,
      branchTo_fetches hfetch, ht]
  have jump : JumpFrame [] 0 u (u.refilled (v.getLsbD 5) r p0 p1) := jumpFrame_refilled ..
  refine ⟨_, run, jumpedTo_refilled _ _ _ _ _ ht, ?_, fun j hj => ?_, ?_, ?_, ?_, ?_, ?_, fun b o => ?_, fun c hne => ?_⟩
  · rw [cur_refilled, hcur]; rfl
  · rw [x_refilled _ _ _ _ _ _ hj]
    show u.cur.reg j = _
    rw [hcur]; rfl
  · rw [jump.kept.bankR13, hcur]; rfl
  · rw [jump.kept.bankR14, hcur]; rfl
  · rw [jump.kept.fiqR8, hcur]; rfl
  · rw [jump.kept.nonfiqR8, hcur]; rfl
  · rw [jump.kept.spsr, hcur]; exact hspsr
  · rw [jump.memory]; simp only [State.byteAt, u, setCur_buf]
  · rw [jump.kept.other c (by simpa only [u, setCur_running] using hne)]
    exact core_setCur_ne s _ c hne

end Sys2Proof.Machine
end

section
/-! PROOFS. The example words of the instruction rules (O3). -/

namespace Sys2Proof

/-- Settles O3: fourteen closed words, each decoded by the kernel. -/
theorem decodeSpecWords : Obligations.DecodeSpecWords := by
  unfold Obligations.DecodeSpecWords
  decide

end Sys2Proof
end

section
/-! PROOFS. Rules the loads and stores share: the write-back of a base, the frame of a store, and `load_pc` over plain memory. -/

namespace Sys2Proof.Machine

@[simp] theorem bind_next_right {α : Type} (x : Res α) : Res.bind x .next = x := by cases x <;> rfl

theorem writeReg_pc (v : Word) (s : State) : writeReg 15 v s = branchTo v s := rfl

theorem writeReg_ne_pc {i : BitVec 4} (h : i ≠ 15) (v : Word) (s : State) : writeReg i v s = .next (s.setX i v) := if_neg h

/-! The write-back of a base (R251). -/

theorem writeBack_eq_wroteBack {rn : BitVec 4} {a : Address} (h : a.wb = true → rn ≠ 15) (s : State) :
    writeBack rn a s = .next (s.wroteBack rn a) := by
  unfold writeBack State.wroteBack
  by_cases hwb : a.wb = true
  · rw [if_pos hwb, if_pos hwb, writeReg_ne_pc (h hwb)]
  · rw [if_neg hwb, if_neg hwb]

theorem writeBack_pc {a : Address} (h : a.wb = true) (s : State) : writeBack 15 a s = branchTo a.idx s := if_pos h

theorem x_wroteBack_base {rn : BitVec 4} {a : Address} (h : a.wb = true) (s : State) : (s.wroteBack rn a).x rn = a.idx := by
  rw [State.wroteBack, if_pos h, x_setX_same]

theorem Frame.refl (s : State) : Frame [] 0 s s :=
  ⟨.refl s, fun _ _ => rfl, rfl, ⟨rfl, rfl, rfl⟩, fun _ _ => rfl⟩

theorem frame_wroteBack (s : State) (rn : BitVec 4) (a : Address) : Frame (backRegs rn a) 0 s (s.wroteBack rn a) := by
  unfold backRegs State.wroteBack
  split
  · exact frame_setX s rn a.idx
  · exact .refl s

/-- A frame may list more registers. -/
theorem Frame.mono {r r' : List (BitVec 4)} {m : Word} {s t : State} (h : Frame r m s t) (hr : r ⊆ r') : Frame r' m s t :=
  { h with regs := fun i hi => h.regs i fun hir => hi (hr hir) }

/-! The frame of a store. -/

theorem Frame.store {r : List (BitVec 4)} {s t : State} (h : Frame r 0 s t) : StoreFrame r s t :=
  ⟨h.kept, h.regs, h.status, h.pipe⟩

theorem StoreFrame.trans {r r' : List (BitVec 4)} {s t u : State} (a : StoreFrame r s t) (b : StoreFrame r' t u) :
    StoreFrame (r ++ r') s u where
  kept := a.kept.trans b.kept
  regs := fun i hi => by
    simp only [List.mem_append, not_or] at hi
    rw [b.regs i hi.2, a.regs i hi.1]
  status := b.status.trans a.status
  pipe := ⟨b.pipe.1.trans a.pipe.1, b.pipe.2.1.trans a.pipe.2.1, b.pipe.2.2.trans a.pipe.2.2⟩

theorem storeFrame_setCells (s : State) (b : Buf) (m : List Host.Cell) : StoreFrame [] s (s.setCells b m) where
  kept := by constructor <;> first | rfl | exact fun c _ => core_setCells s b m c
  regs := fun _ _ => rfl
  status := rfl
  pipe := ⟨rfl, rfl, rfl⟩

/-- Stored bytes stay where memory is kept. -/
theorem StoredAt.kept {b : Buf} {o : Nat} {w : Width} {v : Word} {s t u : State} (h : StoredAt b o w v s t)
    (hm : MemoryKept t u) : StoredAt b o w v s u :=
  ⟨fun i hi => (hm _ _).trans (h.1 i hi), fun b' o' ho => (hm _ _).trans (h.2 b' o' ho)⟩

/-- Where an access goes does not change with what a frame lets change (R72). -/
theorem Kept.locate {s t : State} (h : Kept s t) (c : CoreId) (a : Word) (d : Dir) :
    locate c a d t = locate c a d s := by
  refine locate_congr ?_ h.ctl h.par
  by_cases hc : c = s.running
  · subst hc
    have table := h.pageTable
    unfold State.cur at table
    rwa [h.running] at table
  · rw [h.other c hc]

/-- A write that lands in a buffer completes: the bytes stand there, and nothing else changes (R73, R74). -/
theorem memWrite_completes {c : CoreId} {a : Word} {w : Width} {s : State} {b : Buf} {o : Nat} (hwf : s.buf.wf)
    (hl : locate c (alignDown a w) .write s = .buffer b o) (v : Word) :
    ∃ t, memWrite c a w v s = .next t ∧ StoredAt b o w v s t ∧ StoreFrame [] s t ∧ t.buf.wf :=
  ⟨_, memWrite_buffer hl, storedAt_setCells s b o w v hwf, storeFrame_setCells s b _,
    (busKept_setCells s b o w v).memory hwf⟩

/-! `load_pc` over plain memory (R253). -/

theorem loadPc_a9 {s : State} (h : s.running = .a9) (v : Word) :
    loadPc v s = branchTo (v &&& 0xFFFFFFFE) (s.setCur (s.cur.setT (v.getLsbD 0))) := by
  simp only [loadPc, h]

theorem loadPc_a7 {s : State} (h : s.running = .a7) (v : Word) : loadPc v s = branchTo v s := by
  simp only [loadPc, h]

theorem frame_setT (s : State) (b : Bool) : Frame [] tMask s (s.setCur (s.cur.setT b)) where
  kept := by constructor <;> first | (intro c hc; exact core_setCur_ne s _ c hc) | simp
  regs := fun i _ => by simp [State.x]
  status := by
    unfold StatusKept
    simp only [cur_setCur, CoreState.setT]
    apply BitVec.eq_of_getLsbD_eq
    intro j hj
    rw [BitVec.getLsbD_and, BitVec.getLsbD_and, getLsbD_setBit _ _ _ _ (by decide)]
    by_cases h : j = 5
    · subst h; simp [tMask]
    · simp [h]
  pipe := by simp [PipeKept]
  memory := fun _ _ => by simp [State.byteAt]

/-- A jump over plain memory, with its frame (R174). -/
theorem branchTo_completes {target p0 p1 : Word} {s : State} (h : Fetches s.cur.t target s p0 p1) :
    ∃ t, branchTo target s = .next t ∧ JumpedTo s.cur.t target p0 p1 t ∧ JumpFrame [] 0 s t :=
  ⟨_, branchTo_fetches h, jumpedTo_refilled _ _ _ _ _ rfl, jumpFrame_refilled _ _ _ _ _⟩

/-- A jump may be said to change more of the status. -/
theorem JumpFrame.mono_mask {r : List (BitVec 4)} {m m' : Word} {s t : State} (h : JumpFrame r m s t)
    (hm : m &&& ~~~m' = 0) : JumpFrame r m' s t :=
  { h with status := statusKept_mono h.status hm }

/-- `load_pc` over plain memory completes with its jump, and changes T at most besides. -/
theorem loadPc_completes {v p0 p1 : Word} {s : State} (h : Fetches (loadPcThumb v s) (loadPcTarget v s) s p0 p1) :
    ∃ t, loadPc v s = .next t ∧ JumpedTo (loadPcThumb v s) (loadPcTarget v s) p0 p1 t ∧ JumpFrame [] tMask s t := by
  cases hr : s.running with
  | a7 =>
    simp only [loadPcThumb, loadPcTarget, hr, reduceCtorEq, if_false] at h ⊢
    rw [loadPc_a7 hr]
    obtain ⟨t, run, jumped, frame⟩ := branchTo_completes h
    exact ⟨t, run, jumped, frame.mono_mask (BitVec.zero_and ..)⟩
  | a9 =>
    simp only [loadPcThumb, loadPcTarget, hr, if_true] at h ⊢
    rw [loadPc_a9 hr]
    have hf : Fetches (s.setCur (s.cur.setT (v.getLsbD 0))).cur.t (v &&& 0xFFFFFFFE)
        (s.setCur (s.cur.setT (v.getLsbD 0))) p0 p1 := by
      rw [cur_setCur, t_setT]
      exact (fetches_setCur (k := s.cur.setT (v.getLsbD 0)) rfl).2 h
    obtain ⟨t, run, jumped, frame⟩ := branchTo_completes hf
    rw [cur_setCur, t_setT] at jumped
    exact ⟨t, run, jumped, (frame_setT s _).jump frame⟩

/-- `load_pc` reads of the state the core that runs and its instruction set. -/
theorem loadPc_congr {s u : State} (hr : u.running = s.running) (ht : u.cur.t = s.cur.t) (v : Word) :
    loadPcThumb v u = loadPcThumb v s ∧ loadPcTarget v u = loadPcTarget v s := by
  simp only [loadPcThumb, loadPcTarget, hr, ht, and_self]

end Sys2Proof.Machine
end

section
/-! PROOFS. The single and double transfers of R250 to R266 and their Thumb forms: the addresses (O46), the loads (O47, O49), the
stores (O48), and LDRD and STRD (O51). `exec_of_loadView`, `exec_of_storeView` and `exec_of_doubleView` say what runs. -/

namespace Sys2Proof.Machine

/-- Settles O46: each addressing form is `indexed`, and the block arithmetic is one case of P and U each. -/
theorem transferAddress : Obligations.TransferAddress :=
  ⟨⟨fun _ _ => rfl, fun _ _ => rfl, fun _ _ => rfl, fun _ _ => rfl, fun _ _ => rfl, fun _ _ => rfl⟩,
    fun _ _ => ⟨rfl, rfl, rfl, rfl, rfl, rfl⟩⟩

/-! What a single load runs. -/

/-- The access of a load and the value it makes of what memory holds (R252 to R265). -/
def LoadView.get (v : LoadView) (s : State) : Res (Word × State) :=
  Res.bind (memRead s.running v.a.addr v.width s) fun p => .next (v.value p.1, p.2)

/-- The write of the destination (R250, R253). -/
def LoadView.put (v : LoadView) : Word → State → Res State := if v.exchange then putWord v.rd else writeReg v.rd

/-- A load: the access, the base, the destination (R251). -/
def LoadView.run (v : LoadView) (s : State) : Res State :=
  Res.bind (v.get s) fun p => Res.bind (writeBack v.rn v.a p.2) (v.put p.1)

theorem LoadView.put_eq (v : LoadView) (x : Word) (s : State) :
    v.put x s = if v.rd = 15 then (if v.exchange then loadPc x s else branchTo x s) else .next (s.setX v.rd x) := by
  unfold LoadView.put
  by_cases he : v.exchange = true
  · rw [if_pos he, if_pos he]; rfl
  · rw [if_neg he, if_neg he]; rfl

theorem LoadView.put_ne_pc {v : LoadView} (h : v.rd ≠ 15) (x : Word) (s : State) : v.put x s = .next (s.setX v.rd x) := by
  rw [v.put_eq, if_neg h]

theorem LoadView.run_eq_singleLoad {get : Word → State → Res (Word × State)} {v : LoadView} {s : State}
    (h : get v.a.addr s = v.get s) : v.run s = singleLoad get v.put v.rn v.a s := by
  rw [singleLoad, h, LoadView.run]

/-- A Thumb load has no write-back and a low register as destination (R436). -/
theorem LoadView.run_eq_thumbLoad {get : Word → State → Res (Word × State)} {rd : BitVec 3} {v : LoadView} {s : State}
    (h : get v.a.addr s = v.get s) (hrd : v.rd = low rd) (hwb : v.a.wb = false) :
    v.run s = thumbLoad get rd v.a.addr s := by
  have hput : ∀ p : Word × State, Res.bind (writeBack v.rn v.a p.2) (v.put p.1) = .next (p.2.setX (low rd) p.1) := by
    intro p
    rw [writeBack, if_neg (by rw [hwb]; decide), bind_next, LoadView.put_ne_pc (by rw [hrd]; exact low_ne15 rd), hrd]
  rw [thumbLoad, h, LoadView.run]
  simp only [hput]

section
variable (cond rd rn : BitVec 4) (a : Address) (s : State)

theorem loadByte_eq_get : loadByte a.addr s = (byteLoad cond rd rn a).get s := (bind_next_right _).symm

/-- Bit 0 of the address chooses between the half-word and the byte (R264). -/
theorem loadSignedHalf_eq_get : loadSignedHalf a.addr s = (signedHalfLoad cond rd rn a).get s := by
  have hbit : a.addr.getLsbD 0 = decide (a.addr.toNat % 2 = 1) := by simpa using getLsbD_eq_decide a.addr 0
  unfold loadSignedHalf signedHalfLoad
  rw [hbit]
  by_cases h : a.addr.toNat % 2 = 0
  · rw [if_pos h, if_neg (by simp [h])]; rfl
  · rw [if_neg h, if_pos (decide_eq_true (by omega))]; rfl

theorem signedHalfLoad_cond : (signedHalfLoad cond rd rn a).cond = cond := by
  unfold signedHalfLoad
  split <;> rfl

theorem run_wordLoad : (wordLoad cond rd rn a).run s = singleLoad loadWord (putWord rd) rn a s :=
  LoadView.run_eq_singleLoad rfl

theorem run_byteLoad : (byteLoad cond rd rn a).run s = singleLoad loadByte (writeReg rd) rn a s :=
  LoadView.run_eq_singleLoad (loadByte_eq_get ..)

theorem run_halfLoad : (halfLoad cond rd rn a).run s = singleLoad loadHalf (writeReg rd) rn a s :=
  LoadView.run_eq_singleLoad rfl

theorem run_signedByteLoad : (signedByteLoad cond rd rn a).run s = singleLoad loadSignedByte (writeReg rd) rn a s :=
  LoadView.run_eq_singleLoad rfl

theorem run_signedHalfLoad : (signedHalfLoad cond rd rn a).run s = singleLoad loadSignedHalf (writeReg rd) rn a s := by
  have hget := loadSignedHalf_eq_get cond rd rn a s
  unfold signedHalfLoad at hget ⊢
  by_cases h : a.addr.toNat % 2 = 0
  · rw [if_pos h] at hget ⊢; exact LoadView.run_eq_singleLoad hget
  · rw [if_neg h] at hget ⊢; exact LoadView.run_eq_singleLoad hget

end

section
variable (rd : BitVec 3) (addr : Word) (s : State)

theorem run_wordLoad_thumb : (wordLoad 14 (low rd) 0 (plainAddress addr)).run s = thumbLoad loadWord rd addr s :=
  LoadView.run_eq_thumbLoad rfl rfl rfl

theorem run_byteLoad_thumb : (byteLoad 14 (low rd) 0 (plainAddress addr)).run s = thumbLoad loadByte rd addr s :=
  LoadView.run_eq_thumbLoad (loadByte_eq_get ..) rfl rfl

theorem run_halfLoad_thumb : (halfLoad 14 (low rd) 0 (plainAddress addr)).run s = thumbLoad loadHalf rd addr s :=
  LoadView.run_eq_thumbLoad rfl rfl rfl

theorem run_signedByteLoad_thumb :
    (signedByteLoad 14 (low rd) 0 (plainAddress addr)).run s = thumbLoad loadSignedByte rd addr s :=
  LoadView.run_eq_thumbLoad rfl rfl rfl

theorem run_signedHalfLoad_thumb :
    (signedHalfLoad 14 (low rd) 0 (plainAddress addr)).run s = thumbLoad loadSignedHalf rd addr s := by
  have hget := loadSignedHalf_eq_get 14 (low rd) 0 (plainAddress addr) s
  unfold signedHalfLoad at hget ⊢
  by_cases h : (plainAddress addr).addr.toNat % 2 = 0
  · rw [if_pos h] at hget ⊢; exact LoadView.run_eq_thumbLoad hget rfl rfl
  · rw [if_neg h] at hget ⊢; exact LoadView.run_eq_thumbLoad hget rfl rfl

/-- The PC-relative load does not rotate (R435). -/
theorem run_pcLoad_thumb : LoadView.run { wordLoad 14 (low rd) 0 (plainAddress addr) with value := id } s =
    thumbLoad (fun a t => load a .w32 t) rd addr s :=
  LoadView.run_eq_thumbLoad (get := fun a t => load a .w32 t) (bind_next_right (load addr .w32 s)).symm rfl rfl

end

/-- A scaled offset, computed in words, is the product (R450 to R457). -/
theorem setWidth_mul_ofNat {n : Nat} (x : BitVec n) (k : Nat) :
    x.setWidth 32 * BitVec.ofNat 32 k = BitVec.ofNat 32 (k * x.toNat) := by
  apply BitVec.eq_of_toNat_eq
  simp [BitVec.toNat_mul, Nat.mul_comm]

theorem addrThumbImm_eq (k : Nat) (o : TImmOffOps) (c : CoreState) :
    addrThumbImm (BitVec.ofNat 32 k) o c = c.reg (low o.rb) + BitVec.ofNat 32 (k * o.imm5.toNat) := by
  rw [addrThumbImm, setWidth_mul_ofNat]

theorem addrThumbImm_one (o : TImmOffOps) (c : CoreState) :
    addrThumbImm 1 o c = c.reg (low o.rb) + BitVec.ofNat 32 o.imm5.toNat := by
  simpa using addrThumbImm_eq 1 o c

theorem addrThumbSp_eq (o : TImm8Ops) (c : CoreState) :
    addrThumbSp o c = c.reg 13 + BitVec.ofNat 32 (4 * o.imm8.toNat) :=
  congrArg (c.reg 13 + ·) (setWidth_mul_ofNat o.imm8 4)

/-- A single load runs as its condition, its access, the base and its destination (R251 to R265, R435 to R457). -/
theorem exec_of_loadView {i : Instr} {v : LoadView} {s : State} (e : loadView s.cur i = some v) :
    exec i s = conditional v.cond s (v.run s) := by
  cases i with
  | ldrImm o | ldrReg o | ldrtImm o | ldrtReg o => cases e; exact congrArg (conditional o.cond s) (run_wordLoad ..).symm
  | ldrbImm o | ldrbReg o | ldrbtImm o | ldrbtReg o => cases e; exact congrArg (conditional o.cond s) (run_byteLoad ..).symm
  | ldrhImm o | ldrhReg o => cases e; exact congrArg (conditional o.cond s) (run_halfLoad ..).symm
  | ldrsbImm o | ldrsbReg o => cases e; exact congrArg (conditional o.cond s) (run_signedByteLoad ..).symm
  | ldrshImm o | ldrshReg o =>
    cases e
    rw [signedHalfLoad_cond]
    exact congrArg (conditional o.cond s) (run_signedHalfLoad ..).symm
  | tLdrReg o => cases e; exact (run_wordLoad_thumb ..).symm
  | tLdrImm o => cases e; rw [← addrThumbImm_eq]; exact (run_wordLoad_thumb ..).symm
  | tLdrSp o => cases e; rw [← addrThumbSp_eq]; exact (run_wordLoad_thumb ..).symm
  | tLdrbReg o => cases e; exact (run_byteLoad_thumb ..).symm
  | tLdrbImm o => cases e; rw [← addrThumbImm_one]; exact (run_byteLoad_thumb ..).symm
  | tLdrhReg o => cases e; exact (run_halfLoad_thumb ..).symm
  | tLdrhImm o => cases e; rw [← addrThumbImm_eq]; exact (run_halfLoad_thumb ..).symm
  | tLdsbReg o => cases e; exact (run_signedByteLoad_thumb ..).symm
  | tLdshReg o =>
    cases e
    rw [signedHalfLoad_cond]
    exact (run_signedHalfLoad_thumb ..).symm
  | tLdrPc o =>
    cases e
    rw [← setWidth_mul_ofNat]
    exact (run_pcLoad_thumb ..).symm
  | _ => cases e

/-- Where the base is not R15 its write-back is a register write. -/
theorem LoadView.run_of_read {v : LoadView} {s u : State} {d : Word} (hb : v.a.wb = true → v.rn ≠ 15)
    (hr : memRead s.running v.a.addr v.width s = .next (d, u)) :
    v.run s = v.put (v.value d) (u.wroteBack v.rn v.a) := by
  rw [LoadView.run, LoadView.get, hr, bind_next, bind_next, writeBack_eq_wroteBack hb, bind_next]

theorem LoadView.run_of_fault {v : LoadView} {s : State} {e : Fault}
    (hr : memRead s.running v.a.addr v.width s = .fault e) : v.run s = .fault e := by
  rw [LoadView.run, LoadView.get, hr, bind_fault, bind_fault]

/-- Settles O47: a read, the base and a register below R15, whose frames compose. -/
theorem singleLoad_spec : Obligations.SingleLoad := by
  intro i v s e hc hd hb
  have run : exec i s = v.run s := (exec_of_loadView e).trans (conditional_passed hc _)
  have loaded (d : Word) (u : State) (hr : memRead s.running v.a.addr v.width s = .next (d, u)) :
      exec i s = .next ((u.wroteBack v.rn v.a).setX v.rd (v.value d)) := by
    rw [run, LoadView.run_of_read hb hr, LoadView.put_ne_pc hd]
  refine ⟨loaded, fun d hr => ⟨_, loaded d s (memRead_plain hr), x_setX_same _ _ _, fun hwb hne => ?_, ?_⟩,
    fun f hr => run.trans (LoadView.run_of_fault hr)⟩
  · rw [x_setX_ne _ _ _ _ hne, x_wroteBack_base hwb]
  · exact ((frame_wroteBack s v.rn v.a).trans (frame_setX _ v.rd (v.value d))).mono (by simp)

/-! The loads to R15 (R253, R258). -/

theorem fetches_wroteBack {thumb : Bool} {target p0 p1 : Word} {s : State} {rn : BitVec 4} {a : Address}
    (h : Fetches thumb target s p0 p1) : Fetches thumb target (s.wroteBack rn a) p0 p1 := by
  unfold State.wroteBack
  split
  · exact (fetches_setCur (k := s.cur.setReg rn a.idx) rfl).2 h
  · exact h

theorem t_wroteBack (s : State) (rn : BitVec 4) (a : Address) : (s.wroteBack rn a).cur.t = s.cur.t := by
  unfold State.wroteBack
  split
  · rw [cur_setX]; rfl
  · rfl

/-- The write of R15 jumps: LDR by `load_pc`, a narrow load in the instruction set in force. -/
theorem LoadView.put_pc_completes {v : LoadView} (hd : v.rd = 15) {x p0 p1 : Word} {s : State}
    (hf : Fetches (if v.exchange then loadPcThumb x s else s.cur.t) (if v.exchange then loadPcTarget x s else x) s p0 p1) :
    ∃ t, v.put x s = .next t ∧
      JumpedTo (if v.exchange then loadPcThumb x s else s.cur.t) (if v.exchange then loadPcTarget x s else x) p0 p1 t ∧
      JumpFrame [] (if v.exchange then tMask else 0) s t := by
  rw [v.put_eq, if_pos hd]
  by_cases he : v.exchange = true
  · simp only [he, if_true] at hf ⊢; exact loadPc_completes hf
  · simp only [he] at hf ⊢; exact branchTo_completes hf

/-- Settles O49: the jump starts from the state with the base written back, which fetches as the state after the read does. -/
theorem loadToPc : Obligations.LoadToPc := by
  intro i v s d p0 p1 u e hc hd hb hr thumb target hf
  have back := frame_wroteBack u v.rn v.a
  have read : BusKept s u := memRead_keeps _ _ _ _ _ _ hr
  have hrun : (u.wroteBack v.rn v.a).running = s.running := back.kept.running.trans read.running
  have ht : (u.wroteBack v.rn v.a).cur.t = s.cur.t :=
    (t_wroteBack ..).trans (congrArg (·.getLsbD 5) read.cur.cpsr)
  obtain ⟨hthumb, htarget⟩ := loadPc_congr hrun ht (v.value d)
  obtain ⟨t, put, jumped, frame⟩ := LoadView.put_pc_completes (v := v) hd (x := v.value d) (s := u.wroteBack v.rn v.a)
    (p0 := p0) (p1 := p1) (by rw [hthumb, htarget, ht]; exact fetches_wroteBack hf)
  rw [hthumb, htarget, ht] at jumped
  refine ⟨t, ?_, jumped, fun hwb => ?_, ?_⟩
  · rw [exec_of_loadView e, conditional_passed hc, LoadView.run_of_read hb hr, put]
  · rw [frame.regs v.rn (by simpa using hb hwb), x_wroteBack_base hwb]
  · simpa using back.jump frame

/-! What a single store runs. -/

/-- A store: the access, then the base (R251). -/
def StoreView.run (v : StoreView) (s : State) : Res State :=
  Res.bind (memWrite s.running v.a.addr v.width v.value s) (writeBack v.rn v.a)

/-- A Thumb store has no write-back (R436). -/
theorem thumbStore_eq_run (w : Width) (rd : BitVec 3) (addr : Word) (s : State) : thumbStore w rd addr s =
    StoreView.run { cond := 14, rn := 0, a := plainAddress addr, width := w, value := s.x (low rd) } s :=
  (bind_next_right _).symm

/-- A single store runs as its condition, its access and the base (R251 to R263, R436 to R456). -/
theorem exec_of_storeView {i : Instr} {v : StoreView} {s : State} (e : storeView s i = some v) :
    exec i s = conditional v.cond s (v.run s) := by
  cases i with
  | strImm o | strReg o | strtImm o | strtReg o | strbImm o | strbReg o | strbtImm o | strbtReg o | strhImm o
  | strhReg o => cases e; rfl
  | tStrReg o | tStrbReg o | tStrhReg o => cases e; exact thumbStore_eq_run ..
  | tStrImm o | tStrhImm o => cases e; rw [State.x, ← addrThumbImm_eq]; exact thumbStore_eq_run ..
  | tStrbImm o => cases e; rw [State.x, ← addrThumbImm_one]; exact thumbStore_eq_run ..
  | tStrSp o => cases e; rw [State.x, ← addrThumbSp_eq]; exact thumbStore_eq_run ..
  | _ => cases e

theorem StoreView.run_of_write {v : StoreView} {s u : State} (hb : v.a.wb = true → v.rn ≠ 15)
    (hw : memWrite s.running v.a.addr v.width v.value s = .next u) : v.run s = .next (u.wroteBack v.rn v.a) := by
  rw [StoreView.run, hw, bind_next, writeBack_eq_wroteBack hb]

/-- Settles O48: a write in its three outcomes, then the base, which leaves memory. -/
theorem singleStore_spec : Obligations.SingleStore := by
  intro i v s e hc hb
  have run : exec i s = v.run s := (exec_of_storeView e).trans (conditional_passed hc _)
  have stored (u : State) (hw : memWrite s.running v.a.addr v.width v.value s = .next u) :
      exec i s = .next (u.wroteBack v.rn v.a) := run.trans (StoreView.run_of_write hb hw)
  refine ⟨stored, fun b o hwf hl => ?_, fun hl => ?_, fun f hw => ?_⟩
  · obtain ⟨u, hw, bytes, frame, -⟩ := memWrite_completes hwf hl v.value
    have back := frame_wroteBack u v.rn v.a
    exact ⟨_, stored u hw, bytes.kept back.memory, fun hwb => x_wroteBack_base hwb u, frame.trans back.store⟩
  · have back := frame_wroteBack s v.rn v.a
    exact ⟨_, stored s (memWrite_ignore hl), back.memory, fun hwb => x_wroteBack_base hwb s, back.store⟩
  · rw [run, StoreView.run, hw, bind_fault]

/-! LDRD and STRD (R266). -/

/-- A double transfer on core A9 with an even `Rd` runs as its condition and its two accesses. -/
theorem exec_of_doubleView {i : Instr} {ld : Bool} {cc rd rn : BitVec 4} {a : Address} {s : State}
    (e : doubleView s.cur i = some (ld, cc, rd, rn, a)) (hr : s.running = .a9) :
    exec i s = conditional cc s (if ld then doubleLoad i rd rn a s else doubleStore i rd rn a s) := by
  have onA9_a9 (j : Instr) (body : Res State) : onA9 j s body = body := by simp only [onA9, hr]
  cases i with
  | ldrdImm o | ldrdReg o | strdImm o | strdReg o => cases e; exact congrArg (conditional o.cond s) (onA9_a9 _ _)
  | _ => cases e

theorem even_succ_eq_pc : ∀ {rd : BitVec 4}, rd.getLsbD 0 = false → (rd + 1 = 15 ↔ rd = 14) := by decide

section
variable {i : Instr} {rd rn : BitVec 4} {a : Address} {s : State}

theorem doubleLoad_of_reads {lo hi : Word} {u1 u2 : State} (he : rd.getLsbD 0 = false) (hb : a.wb = true → rn ≠ 15)
    (h1 : load a.addr .w32 s = .next (lo, u1)) (h2 : load (a.addr + 4) .w32 u1 = .next (hi, u2)) :
    doubleLoad i rd rn a s = writeReg (rd + 1) hi ((u2.wroteBack rn a).setX rd lo) := by
  rw [doubleLoad, if_neg (by rw [he]; decide), h1, bind_next, h2, bind_next, writeBack_eq_wroteBack hb, bind_next]

theorem doubleStore_of_writes {u1 u2 : State} (he : rd.getLsbD 0 = false) (hb : a.wb = true → rn ≠ 15)
    (h1 : store a.addr .w32 (s.x rd) s = .next u1)
    (h2 : store (a.addr + 4) .w32 (storedValue (rd + 1) s) u1 = .next u2) :
    doubleStore i rd rn a s = .next (u2.wroteBack rn a) := by
  rw [doubleStore, if_neg (by rw [he]; decide), h1, bind_next, show storeReg (rd + 1) s = storedValue (rd + 1) s from rfl,
    h2, bind_next, writeBack_eq_wroteBack hb]

end

/-- Settles O51: the second access is made from the state after the first, which plain memory and a buffer leave as they were
but for the bytes stored. -/
theorem doubleTransfer : Obligations.DoubleTransfer := by
  intro i ld cc rd rn a s e hr hc he hb
  have run : exec i s = if ld then doubleLoad i rd rn a s else doubleStore i rd rn a s :=
    (exec_of_doubleView e hr).trans (conditional_passed hc _)
  have loaded (hld : ld = true) {lo hi : Word} {u1 u2 : State} (h1 : memRead .a9 a.addr .w32 s = .next (lo, u1))
      (h2 : memRead .a9 (a.addr + 4) .w32 u1 = .next (hi, u2)) :
      exec i s = writeReg (rd + 1) hi ((u2.wroteBack rn a).setX rd lo) := by
    rw [run, if_pos hld]
    refine doubleLoad_of_reads he hb (by rw [load, hr, h1]) ?_
    rw [load, (memRead_keeps _ _ _ _ _ _ h1).running, hr, h2]
  have stored (hld : ld = false) {u1 u2 : State} (h1 : memWrite .a9 a.addr .w32 (s.x rd) s = .next u1)
      (h2 : memWrite .a9 (a.addr + 4) .w32 (storedValue (rd + 1) s) u1 = .next u2) :
      exec i s = .next (u2.wroteBack rn a) := by
    rw [run, if_neg (by rw [hld]; decide)]
    refine doubleStore_of_writes he hb (by rw [store, hr, h1]) ?_
    rw [store, (memWrite_keeps _ _ _ _ _ _ h1).running, hr, h2]
  have hpc := even_succ_eq_pc he
  refine ⟨fun hld lo hi u1 u2 h1 h2 => ⟨fun hne => ?_, fun h14 => ?_⟩, fun hld hne lo hi h1 h2 => ?_,
    fun hld u1 u2 h1 h2 => stored hld h1 h2, fun hld hwf b o b' o' hl hl' => ?_⟩
  · rw [loaded hld h1 h2, writeReg_ne_pc (mt hpc.1 hne)]
  · rw [loaded hld h1 h2, h14]; rfl
  · have hlt : rd ≠ rd + 1 := by simp
    refine ⟨_, (loaded hld (memRead_plain h1) (memRead_plain h2)).trans (writeReg_ne_pc (mt hpc.1 hne) _ _), ?_,
      x_setX_same _ _ _, fun hwb hn hn' => ?_, ?_⟩
    · rw [x_setX_ne _ _ _ _ hlt, x_setX_same]
    · rw [x_setX_ne _ _ _ _ hn', x_setX_ne _ _ _ _ hn, x_wroteBack_base hwb]
    · exact (((frame_wroteBack s rn a).trans (frame_setX _ rd lo)).trans (frame_setX _ (rd + 1) hi)).mono (by
        intro j; simp; tauto)
  · obtain ⟨u1, h1, bytes1, frame1, hwf1⟩ := memWrite_completes hwf hl (s.x rd)
    obtain ⟨u2, h2, bytes2, frame2, -⟩ :=
      memWrite_completes hwf1 ((frame1.kept.locate _ _ _).trans hl') (storedValue (rd + 1) s)
    have back := frame_wroteBack u2 rn a
    exact ⟨u1, _, stored hld h1 h2, bytes1, bytes2.kept back.memory, fun hwb => x_wroteBack_base hwb u2,
      (frame1.trans frame2).trans back.store⟩

end Sys2Proof.Machine
end

section
/-! PROOFS. Write-back to R15 (O50): the single transfers through their views, the block transfers through what LDM and STM do once
the words are loaded or stored. -/

namespace Sys2Proof.Machine

/-! LDM after its loads, STM after its stores (R292 to R297). -/

section
variable {o : BdtOps} {s u : State} {regs : List (BitVec 4)} {n : Nat} {vs : List (BitVec 4 × Word)}

/-- LDM without R15: the base before the registers or after them. -/
theorem loadMultiple_without_pc (ht : transferRegs s.running o.list = (regs, n))
    (hl : loadList regs (blockStart o.p o.u (s.x o.rn) n) s = .next (vs, u)) (hpc : pcOf vs = none) :
    loadMultiple o s =
      Res.bind (if ldmWriteBack s.running o.w o.rn o.list = .before then writeReg o.rn (blockWriteBack o.u (s.x o.rn) n) u
        else .next u) fun t =>
      if ldmWriteBack s.running o.w o.rn o.list = .after then
        writeReg o.rn (blockWriteBack o.u (s.x o.rn) n) (writeList (o.s == 1) vs t)
      else .next (writeList (o.s == 1) vs t) := by
  unfold loadMultiple
  simp only [ht, hl, hpc, bind_next]

/-- LDM with R15: after the other registers `load_pc`, or in the S form the exception return. -/
theorem loadMultiple_with_pc {v : Word} (ht : transferRegs s.running o.list = (regs, n))
    (hl : loadList regs (blockStart o.p o.u (s.x o.rn) n) s = .next (vs, u)) (hpc : pcOf vs = some v) :
    loadMultiple o s =
      Res.bind (if ldmWriteBack s.running o.w o.rn o.list = .before then writeReg o.rn (blockWriteBack o.u (s.x o.rn) n) u
        else .next u) fun t =>
      let late : State → Res State := fun y =>
        if ldmWriteBack s.running o.w o.rn o.list = .after then writeReg o.rn (blockWriteBack o.u (s.x o.rn) n) y else .next y
      if o.s = 1 then Res.bind (late (writeList false vs t)) (returnFromException v)
      else Res.bind (loadPc v (writeList false vs t)) late := by
  unfold loadMultiple
  simp only [ht, hl, hpc, bind_next]

theorem storeMultiple_of_stores (ht : transferRegs s.running o.list = (regs, n))
    (hs : storeList (regs.map (stmValue o (blockWriteBack o.u (s.x o.rn) n) (regs.headD 15) s))
      (blockStart o.p o.u (s.x o.rn) n) s = .next u) :
    storeMultiple o s = if o.w = 1 then writeReg o.rn (blockWriteBack o.u (s.x o.rn) n) u else .next u := by
  unfold storeMultiple
  simp only [ht, hs, bind_next]

end

/-! The transferred registers and the base R15. -/

theorem transferRegs_of_ne {list : BitVec 16} (h : list ≠ 0) (c : CoreId) :
    transferRegs c list = (listRegs list, (listRegs list).length) := if_neg h

theorem pcOf_eq_none {list : BitVec 16} (h : list.getLsbD 15 = false) {a : Word} {s u : State}
    {vs : List (BitVec 4 × Word)} (hl : loadList (listRegs list) a s = .next (vs, u)) : pcOf vs = none := by
  rw [← Option.not_isSome_iff_eq_none, pcOf_isSome, regs_of_loadList _ _ _ _ _ hl, mem_listRegs]
  exact ne_true_of_eq_false h

/-- R15 is the highest register of a list that names it (R290). -/
theorem getLast?_listRegs {list : BitVec 16} (h : list.getLsbD 15 = true) : (listRegs list).getLast? = some 15 := by
  rw [listRegs, List.range_succ, List.filter_append, List.filter_singleton, h, List.map_append]
  simp

/-- A base R15 outside the list is written first (R295). -/
theorem ldmWriteBack_pc_unlisted {list : BitVec 16} (h : list.getLsbD 15 = false) (c : CoreId) :
    ldmWriteBack c 1 15 list = .before := by
  unfold ldmWriteBack
  exact (if_neg (by decide)).trans (if_pos h)

/-- A base R15 in the list is never written first, and written last by core A9 where it is alone (R295). -/
theorem ldmWriteBack_pc_listed {list : BitVec 16} (h : list.getLsbD 15 = true) (c : CoreId) :
    ldmWriteBack c 1 15 list ≠ .before ∧ (ldmWriteBack c 1 15 list = .after ↔ c = .a9 ∧ listRegs list = [15]) := by
  have hlisted : ¬ list.getLsbD (15 : BitVec 4).toNat = false := ne_false_of_eq_true h
  unfold ldmWriteBack
  rw [if_neg (by decide), if_neg hlisted]
  cases c with
  | a7 => simp
  | a9 =>
    simp only [or_iff_left (not_not_intro (getLast?_listRegs h)), true_and]
    by_cases halone : listRegs list = [15]
    · rw [if_pos halone]; exact ⟨by decide, iff_of_true rfl halone⟩
    · rw [if_neg halone]; exact ⟨by decide, iff_of_false (by decide) halone⟩

/-- With base R15 no stored register is the written-back base: R15 is stored as the address + 12 (R293). -/
theorem stmValue_pc_base {o : BdtOps} (h : o.rn = 15) (back : Word) (first : BitVec 4) (s : State) :
    stmValue o back first s = stmWord o back s := by
  funext i
  by_cases hi : i = 15
  · rw [stmValue, stmWord, if_pos hi, if_pos hi]; rfl
  · have hrn : i ≠ o.rn := by rwa [h]
    simp only [stmValue, stmWord, hi, hrn, false_and, if_false]

/-- Settles O50: every write-back to R15 is the jump `writeReg 15`, at its place in the transfer. -/
theorem baseR15WriteBack : Obligations.BaseR15WriteBack := by
  refine ⟨?load, ?store, ?ldm, ?stm, ?ldmPc, ?empty⟩
  case load =>
    intro i v s d u e hc hwb hrn hr
    rw [exec_of_loadView e, conditional_passed hc, LoadView.run, LoadView.get, hr, bind_next, bind_next, hrn, writeBack_pc hwb]
    exact congrArg (Res.bind _) (funext fun x => v.put_eq _ x)
  case store =>
    intro i v s u e hc hwb hrn hw
    rw [exec_of_storeView e, conditional_passed hc, StoreView.run, hw, bind_next, hrn, writeBack_pc hwb]
  case ldm =>
    intro o s u vs hc hw hrn h0 h15 n hl
    rw [← hrn] at hl
    have hwb : ldmWriteBack s.running o.w o.rn o.list = .before := by rw [hw, hrn, ldmWriteBack_pc_unlisted h15]
    refine (conditional_passed hc _).trans ?_
    rw [loadMultiple_without_pc (transferRegs_of_ne h0 _) hl (pcOf_eq_none h15 hl), hwb, if_pos rfl, hrn, writeReg_pc]
    rfl
  case stm =>
    intro o s u hc hw hrn h0 n back hs
    refine (conditional_passed hc _).trans ?_
    rw [storeMultiple_of_stores (u := u) (transferRegs_of_ne h0 _) (by rw [stmValue_pc_base hrn, hrn]; exact hs), if_pos hw, hrn]
    rfl
  case ldmPc =>
    intro o s u vs v hc hw hrn h15 n back hl hpc x late
    have h0 : o.list ≠ 0 := fun h0 => by rw [h0] at h15; exact absurd h15 (by decide)
    obtain ⟨hbefore, hafter⟩ : ldmWriteBack s.running o.w o.rn o.list ≠ .before ∧
        (ldmWriteBack s.running o.w o.rn o.list = .after ↔ s.running = .a9 ∧ listRegs o.list = [15]) := by
      rw [hw, hrn]
      exact ldmWriteBack_pc_listed h15 s.running
    refine (conditional_passed hc _).trans ?_
    rw [← hrn] at hl
    rw [loadMultiple_with_pc (transferRegs_of_ne h0 _) hl hpc, if_neg hbefore, bind_next]
    simp only [hafter]
    rw [hrn]
    rfl
  case empty =>
    intro o s hc hw hrn h0 start back
    have hwb : ldmWriteBack s.running o.w o.rn o.list = .before := by
      rw [hw, hrn, h0, ldmWriteBack_pc_unlisted (by decide)]
    refine ⟨fun hr => ?_, fun hr u hs => ?_, fun hr d u hl => ?_⟩
    · have ht : transferRegs s.running o.list = ([], 16) := by rw [hr, h0]; rfl
      refine ⟨(conditional_passed hc _).trans ?_, (conditional_passed hc _).trans ?_⟩
      · rw [loadMultiple_without_pc ht rfl rfl, hwb, if_pos rfl, hrn]
        exact bind_next_right _
      · rw [storeMultiple_of_stores ht rfl, if_pos hw, hrn]
        rfl
    · have ht : transferRegs s.running o.list = ([15], 16) := by rw [hr, h0]; rfl
      refine (conditional_passed hc _).trans ?_
      have hstore : store start .w32 (storedValue 15 s) s = .next u := by rw [store, hr, hs]
      rw [storeMultiple_of_stores (u := u) ht ?_, if_pos hw, hrn]
      · rfl
      · rw [stmValue_pc_base hrn, hrn]
        exact (bind_next_right _).trans hstore
    · have ht : transferRegs s.running o.list = ([15], 16) := by rw [hr, h0]; rfl
      have hload : loadList [15] (blockStart o.p o.u (s.x o.rn) 16) s = .next ([(15, d)], u) := by
        rw [hrn, loadList, load, hr, hl]; rfl
      refine (conditional_passed hc _).trans ?_
      rw [loadMultiple_with_pc ht hload rfl, hwb, if_pos rfl, hrn, writeReg_pc]
      refine congrArg (Res.bind _) (funext fun x => ?_)
      by_cases hs : o.s = 1
      · rw [if_pos hs, if_pos hs]; rfl
      · rw [if_neg hs, if_neg hs]; exact bind_next_right _

end Sys2Proof.Machine
end

section
/-! PROOFS. The swaps of R300 and R301 (O52). -/

namespace Sys2Proof.Machine

/-- Two sequences in a row are one. -/
theorem bind_bind {α β γ : Type} (x : Res α) (f : α → Res β) (g : β → Res γ) :
    Res.bind (Res.bind x f) g = Res.bind x fun a => Res.bind (f a) g := by cases x <;> rfl

/-- A word load rotates right by the bytes its address is off (R252). -/
theorem rotateWord_eq_rotateRight (a d : Word) : rotateWord a d = d.rotateRight (8 * (a.toNat % 4)) := by
  rw [rotateWord, ror32, BitVec.extractLsb'_toNat, Nat.shiftRight_zero]

section
variable {i : Instr} {o : SwpOps} {w : Width} {f : Word → Word} {s : State}

/-- A swap runs as its condition, its read, its write and its destination (R300, R301). -/
theorem exec_of_swapView (e : swapView s i = some (o, w, f)) :
    exec i s = conditional o.cond s (Res.bind (memRead s.running (s.x o.rn) w s) fun p =>
      Res.bind (store (s.x o.rn) w (s.x o.rm) p.2) (writeReg o.rd (f p.1))) := by
  cases i with
  | swp _ =>
    cases e
    refine congrArg (conditional o.cond s) ?_
    rw [swap, loadWord, bind_bind]
    simp only [bind_next, rotateWord_eq_rotateRight]
    rfl
  | swpb _ => cases e; rfl
  | _ => cases e

/-- The write of a swap is by the core that read (R300). -/
theorem store_of_read {d a v : Word} {u : State} (hr : memRead s.running a w s = .next (d, u)) :
    store a w v u = memWrite s.running a w v u := by
  rw [store, (memRead_keeps _ _ _ _ _ _ hr).running]

end

/-- Settles O52: the write starts from the state after the read, which plain memory leaves as it was. -/
theorem swap_spec : Obligations.Swap := by
  intro i o w f s e hc
  have run := (exec_of_swapView e).trans (conditional_passed hc _)
  have swapped (d : Word) (u1 u2 : State) (hr : memRead s.running (s.x o.rn) w s = .next (d, u1))
      (hw : memWrite s.running (s.x o.rn) w (s.x o.rm) u1 = .next u2) : exec i s = writeReg o.rd (f d) u2 := by
    rw [run, hr, bind_next, store_of_read hr, hw, bind_next]
  refine ⟨fun d u1 u2 hr hw => ⟨fun hd => ?_, fun hd => ?_⟩, fun x hr => ?_, fun d u1 x hr hw => ?_,
    fun d b q hwf hr hl hd => ?_⟩
  · rw [swapped d u1 u2 hr hw, writeReg_ne_pc hd]
  · rw [swapped d u1 u2 hr hw, hd, writeReg_pc]
  · rw [run, hr, bind_fault]
  · rw [run, hr, bind_next, store_of_read hr, hw, bind_fault]
  · obtain ⟨u, hw, bytes, frame, -⟩ := memWrite_completes hwf hl (s.x o.rm)
    have dest := frame_setX u o.rd (f d)
    exact ⟨_, (swapped d s u (memRead_plain hr) hw).trans (writeReg_ne_pc hd _ _), x_setX_same _ _ _,
      bytes.kept dest.memory, frame.trans dest.store⟩

end Sys2Proof.Machine
end
section
/-! PROOFS. The register lists of the block transfers (R290): ascending, without repetition, with their lowest and highest register;
and from them when LDM writes its base back (R295). -/

namespace Sys2Proof.Machine

/-- The registers of a list ascend (R290). -/
theorem pairwise_listRegs (list : BitVec 16) : (listRegs list).Pairwise (·.toNat < ·.toNat) := by
  refine List.pairwise_map.2 ((List.pairwise_lt_range.filter _).imp_of_mem fun ha hb hlt => ?_)
  have ha := List.mem_range.1 (List.mem_filter.1 ha).1
  have hb := List.mem_range.1 (List.mem_filter.1 hb).1
  rwa [BitVec.toNat_ofNat, BitVec.toNat_ofNat, Nat.mod_eq_of_lt ha, Nat.mod_eq_of_lt hb]

theorem nodup_listRegs (list : BitVec 16) : (listRegs list).Nodup :=
  (pairwise_listRegs list).imp fun hlt he => Nat.ne_of_lt hlt (congrArg BitVec.toNat he)

/-- A list is known by its registers. -/
theorem listRegs_injective {a b : BitVec 16} (h : listRegs a = listRegs b) : a = b := by
  refine BitVec.eq_of_getLsbD_eq fun n hn => Bool.eq_iff_iff.2 ?_
  have hbit : (BitVec.ofNat 4 n).toNat = n := by rw [BitVec.toNat_ofNat, Nat.mod_eq_of_lt hn]
  rw [← hbit, ← mem_listRegs, ← mem_listRegs, h]

theorem listRegs_single : ∀ i : BitVec 4, listRegs (1#16 <<< i.toNat) = [i] := by decide

theorem listRegs_eq_single {list : BitVec 16} {i : BitVec 4} : listRegs list = [i] ↔ list = 1#16 <<< i.toNat :=
  ⟨fun h => listRegs_injective (h.trans (listRegs_single i).symm), fun h => h ▸ listRegs_single i⟩

/-- In an ascending list with register `i`, the last one is `i` exactly when none is above it. -/
theorem getLast?_listRegs_eq {list : BitVec 16} {i : BitVec 4} (h : i ∈ listRegs list) :
    (listRegs list).getLast? = some i ↔ ∀ j ∈ listRegs list, j.toNat ≤ i.toNat := by
  have last (m : BitVec 4) (hm : (listRegs list).getLast? = some m) : ∀ j ∈ listRegs list, j.toNat ≤ m.toNat := by
    obtain ⟨lower, hl⟩ := List.getLast?_eq_some_iff.1 hm
    have asc := pairwise_listRegs list
    rw [hl] at asc ⊢
    intro j hj
    rcases List.mem_append.1 hj with hj | hj
    · exact Nat.le_of_lt ((List.pairwise_append.1 asc).2.2 j hj m (List.mem_singleton_self m))
    · rw [List.mem_singleton.1 hj]
  refine ⟨last i, fun hi => ?_⟩
  have hm := List.getLast?_eq_some_getLast (List.ne_nil_of_mem h)
  rw [hm, BitVec.eq_of_toNat_eq (Nat.le_antisymm (hi _ (List.getLast_mem _)) (last _ hm i h))]

/-- No register is above `i` exactly when the list shifted past bit `i` is empty. -/
theorem shiftRight_eq_zero_iff {list : BitVec 16} {i : BitVec 4} :
    list >>> (i.toNat + 1) = 0#16 ↔ ∀ j ∈ listRegs list, j.toNat ≤ i.toNat := by
  constructor
  · intro h j hj
    by_contra hlt
    have hbit := congrArg (·.getLsbD (j.toNat - (i.toNat + 1))) h
    simp only [BitVec.getLsbD_ushiftRight, BitVec.getLsbD_zero] at hbit
    rw [show i.toNat + 1 + (j.toNat - (i.toNat + 1)) = j.toNat by omega, (mem_listRegs list j).1 hj] at hbit
    exact absurd hbit (by decide)
  · intro h
    refine BitVec.eq_of_getLsbD_eq fun n hn => ?_
    rw [BitVec.getLsbD_ushiftRight, BitVec.getLsbD_zero, Bool.eq_false_iff]
    intro hbit
    have hlt := BitVec.lt_of_getLsbD hbit
    have hj : (BitVec.ofNat 4 (i.toNat + 1 + n)).toNat = i.toNat + 1 + n := by
      rw [BitVec.toNat_ofNat, Nat.mod_eq_of_lt hlt]
    have := h _ ((mem_listRegs list _).2 (by rwa [hj]))
    omega

/-- In a list with register `i`, `i` is the first exactly when no bit below `i` is set. -/
theorem headD_listRegs_eq {list : BitVec 16} {i d : BitVec 4} (h : i ∈ listRegs list) :
    i = (listRegs list).headD d ↔ list.toNat % 2 ^ i.toNat = 0 := by
  obtain ⟨first, rest, hl⟩ := List.exists_cons_of_ne_nil (List.ne_nil_of_mem h)
  have asc := pairwise_listRegs list
  rw [hl] at asc
  have above := (List.pairwise_cons.1 asc).1
  have bit (j : BitVec 4) : j ∈ first :: rest ↔ list.toNat.testBit j.toNat = true := hl ▸ mem_listRegs list j
  have hi : i = first ∨ i ∈ rest := List.mem_cons.1 (hl ▸ h)
  rw [hl, List.headD_cons]
  constructor
  · rintro rfl
    refine Nat.eq_of_testBit_eq fun n => ?_
    rw [Nat.testBit_mod_two_pow, Nat.zero_testBit]
    by_contra hn
    obtain ⟨hlt, hbit⟩ : n < i.toNat ∧ list.toNat.testBit n = true := by simpa using hn
    have hn : (BitVec.ofNat 4 n).toNat = n := by
      rw [BitVec.toNat_ofNat, Nat.mod_eq_of_lt (Nat.lt_trans hlt i.isLt)]
    rcases List.mem_cons.1 ((bit _).2 (by rwa [hn])) with he | he
    · exact absurd (congrArg BitVec.toNat he) (by omega)
    · have := above _ he
      omega
  · intro h0
    refine hi.resolve_right fun hr => ?_
    have hbit := Nat.testBit_mod_two_pow list.toNat i.toNat first.toNat
    rw [h0, Nat.zero_testBit, (bit first).1 (List.mem_cons_self ..), decide_eq_true (above i hr)] at hbit
    exact absurd hbit (by decide)

/-! The write-back of LDM (R295). -/

/-- LDM writes its base back, before the loaded values or after them, exactly where R295 allows it. -/
theorem ldmWritesBack_iff {c : CoreId} {w : BitVec 1} {rn : BitVec 4} {list : BitVec 16} :
    ldmWritesBack c w rn list = true ↔ ldmWriteBack c w rn list ≠ .never := by
  unfold ldmWritesBack ldmWriteBack
  rcases BitVec.eq_zero_or_eq_one w with rfl | rfl
  · simp
  · by_cases hl : list.getLsbD rn.toNat = true
    · have hm := (mem_listRegs list rn).2 hl
      cases c with
      | a7 => simp [hl]
      | a9 =>
        simp [hl, listRegs_eq_single, getLast?_listRegs_eq hm, ← shiftRight_eq_zero_iff, or_iff_not_imp_left]
    · simp [hl]

/-- A base written before the loaded values is none of them (R295). -/
theorem not_mem_of_ldmWriteBack_before {c : CoreId} {w : BitVec 1} {rn : BitVec 4} {list : BitVec 16}
    (h : ldmWriteBack c w rn list = .before) : rn ∉ listRegs list := by
  intro hm
  have hl := (mem_listRegs list rn).1 hm
  revert h
  unfold ldmWriteBack
  rw [hl, if_neg (show ¬true = false by decide)]
  cases c with
  | a7 => simp
  | a9 => split_ifs <;> simp

end Sys2Proof.Machine
end

section
/-! PROOFS. What the loaded values of a list and the base leave in the registers (R292, R295), and in the S form in the User bank's
(R296(b)). -/

namespace Sys2Proof.Machine

/-- The pairs a list loads are for its registers, each once. -/
theorem nodup_of_loadList {list : BitVec 16} {a : Word} {s u : State} {vs : List (BitVec 4 × Word)}
    (h : loadList (listRegs list) a s = .next (vs, u)) : (vs.map Prod.fst).Nodup :=
  (regs_of_loadList _ _ _ _ _ h).symm ▸ nodup_listRegs list

/-! The registers of the executing mode. -/

section
variable {i : BitVec 4} {v : Word} {rest : List (BitVec 4 × Word)}

theorem writeList_cons (h : i ≠ 15) (s : State) :
    writeList false ((i, v) :: rest) s = writeList false rest (s.setX i v) := by
  rw [writeList, if_neg h]; rfl

theorem writeList_cons_user (h : i ≠ 15) (s : State) :
    writeList true ((i, v) :: rest) s = writeList true rest (s.setCur (s.cur.setUserReg i v)) := by
  rw [writeList, if_neg h]; rfl

end

/-- The registers a list writes: the loaded ones but R15. -/
def writtenRegs (vs : List (BitVec 4 × Word)) : List (BitVec 4) := (vs.map Prod.fst).filter (· ≠ 15)

theorem writtenRegs_cons {i : BitVec 4} (h : i ≠ 15) (v : Word) (rest : List (BitVec 4 × Word)) :
    writtenRegs ((i, v) :: rest) = i :: writtenRegs rest := List.filter_cons_of_pos (decide_eq_true h)

theorem frame_writeList (vs : List (BitVec 4 × Word)) : ∀ s, Frame (writtenRegs vs) 0 s (writeList false vs s) := by
  induction vs with
  | nil => exact .refl
  | cons p rest ih =>
    intro s
    obtain ⟨i, v⟩ := p
    by_cases h : i = 15
    · subst h
      exact ih s
    · rw [writeList_cons h, writtenRegs_cons h]
      exact (frame_setX s i v).trans (ih _)

theorem not_mem_writtenRegs {i : BitVec 4} {vs : List (BitVec 4 × Word)} (h : i ∉ vs.map Prod.fst) : i ∉ writtenRegs vs :=
  fun hm => h (List.mem_of_mem_filter hm)

/-- Every loaded register but R15 holds its word (R292). -/
theorem x_writeList {vs : List (BitVec 4 × Word)} (hn : (vs.map Prod.fst).Nodup) {p : BitVec 4 × Word} (hp : p ∈ vs)
    (h15 : p.1 ≠ 15) : ∀ s, (writeList false vs s).x p.1 = p.2 := by
  induction vs with
  | nil => cases hp
  | cons q rest ih =>
    intro s
    obtain ⟨hq, hn⟩ := List.nodup_cons.1 hn
    rcases List.mem_cons.1 hp with rfl | hp
    · rw [writeList_cons h15, (frame_writeList rest _).regs _ (not_mem_writtenRegs hq), x_setX_same]
    · exact ih hn hp _

/-! The User bank's registers (R296(b)). -/

section
variable {k l : CoreState} {i j : BitVec 4}

theorem bank_congr (h : l.cpsr = k.cpsr) : l.bank = k.bank := by
  unfold CoreState.bank CoreState.mode; rw [h]

theorem cpsr_setUserReg (k : CoreState) (i : BitVec 4) (v : Word) : (k.setUserReg i v).cpsr = k.cpsr := by
  unfold CoreState.setUserReg; split_ifs <;> rfl

theorem bank_setUserReg (k : CoreState) (i : BitVec 4) (v : Word) : (k.setUserReg i v).bank = k.bank :=
  bank_congr (cpsr_setUserReg k i v)

/-- The register of the User bank reads as written. -/
theorem userReg_setUserReg_same (k : CoreState) (i : BitVec 4) (v : Word) : (k.setUserReg i v).userReg i = v := by
  unfold CoreState.userReg
  rw [bank_setUserReg]
  unfold CoreState.setUserReg
  split_ifs <;> simp [Vector.get_eq_getElem]

theorem userReg_setReg_ne (h : j ≠ i) (v : Word) : (k.setReg i v).userReg j = k.userReg j := by
  unfold CoreState.userReg
  rw [bank_setReg, reg_setReg_ne _ _ _ _ h]
  rfl

/-- The five registers that FIQ keeps apart are each in a place of their own. -/
theorem nonfiqR8_set_ne (k : CoreState) (hi : 8 ≤ i.toNat ∧ i.toNat ≤ 12) (hj : 8 ≤ j.toNat ∧ j.toNat ≤ 12) (h : j ≠ i)
    (v : Word) : (k.nonfiqR8.set (Fin.ofNat 5 (i.toNat - 8)) v).get (Fin.ofNat 5 (j.toNat - 8)) =
      k.nonfiqR8.get (Fin.ofNat 5 (j.toNat - 8)) := by
  have hne : j.toNat ≠ i.toNat := fun e => h (BitVec.eq_of_toNat_eq e)
  rw [Vector.get_eq_getElem, Vector.get_eq_getElem]
  exact Vector.getElem_set_ne _ _ (by simp only [Fin.val_ofNat]; omega)

/-- Another register of the User bank is as it was: each of the three banked places is told apart by its number (R296(b)). -/
theorem userReg_setUserReg_ne (h : j ≠ i) (v : Word) : (k.setUserReg i v).userReg j = k.userReg j := by
  unfold CoreState.setUserReg
  split_ifs with hf h13 h14
  · unfold CoreState.userReg
    exact ite_congr rfl (fun hj => nonfiqR8_set_ne k ⟨hf.1, hf.2.1⟩ ⟨hj.1, hj.2.1⟩ h v) fun _ => rfl
  · have hj : j ≠ 13 := fun e => h (e.trans h13.1.symm)
    unfold CoreState.userReg
    exact ite_congr rfl (fun _ => rfl) fun _ =>
      (if_neg (not_and_of_not_left _ hj)).trans (if_neg (not_and_of_not_left _ hj)).symm
  · have hj : j ≠ 14 := fun e => h (e.trans h14.1.symm)
    unfold CoreState.userReg
    exact ite_congr rfl (fun _ => rfl) fun _ => ite_congr rfl (fun _ => rfl) fun _ =>
      (if_neg (not_and_of_not_left _ hj)).trans (if_neg (not_and_of_not_left _ hj)).symm
  · exact userReg_setReg_ne h v

/-- A write of a User register leaves the other live registers, and those of the mode's own bank (R296(b)). -/
theorem reg_setUserReg_of (h : j ≠ i ∨ (k.bank ≠ .usr ∧ (j = 13 ∨ j = 14))) (v : Word) :
    (k.setUserReg i v).reg j = k.reg j := by
  unfold CoreState.setUserReg
  split_ifs with hf h13 h14
  · rfl
  · rfl
  · rfl
  · refine reg_setReg_ne _ _ _ _ (h.elim id fun ⟨hb, hj⟩ e => ?_)
    exact hj.elim (fun hj => h13 ⟨e.symm.trans hj, hb⟩) fun hj => h14 ⟨e.symm.trans hj, hb⟩

end

/-- What no load of User registers changes (R296(b)): the status, the saved statuses, the pipeline, memory and the other core. -/
structure UserLoadKept (s t : State) : Prop where
  running : t.running = s.running
  cpsr    : t.cur.cpsr = s.cur.cpsr
  spsr    : t.cur.spsr = s.cur.spsr
  pipe    : PipeKept s t
  buf     : t.buf = s.buf
  other   : ∀ c, c ≠ s.running → t.core c = s.core c

theorem UserLoadKept.refl (s : State) : UserLoadKept s s := ⟨rfl, rfl, rfl, ⟨rfl, rfl, rfl⟩, rfl, fun _ _ => rfl⟩

theorem UserLoadKept.trans {s t u : State} (a : UserLoadKept s t) (b : UserLoadKept t u) : UserLoadKept s u where
  running := b.running.trans a.running
  cpsr := b.cpsr.trans a.cpsr
  spsr := b.spsr.trans a.spsr
  pipe := ⟨b.pipe.1.trans a.pipe.1, b.pipe.2.1.trans a.pipe.2.1, b.pipe.2.2.trans a.pipe.2.2⟩
  buf := b.buf.trans a.buf
  other := fun c hc => (b.other c (by rwa [a.running])).trans (a.other c hc)

theorem userLoadKept_setCur (s : State) {k : CoreState} (hc : k.cpsr = s.cur.cpsr) (hs : k.spsr = s.cur.spsr)
    (h0 : k.pipe0 = s.cur.pipe0) (h1 : k.pipe1 = s.cur.pipe1) : UserLoadKept s (s.setCur k) where
  running := setCur_running ..
  cpsr := by rw [cur_setCur, hc]
  spsr := by rw [cur_setCur, hs]
  pipe := ⟨by rw [cur_setCur, h0], by rw [cur_setCur, h1], setCur_branched ..⟩
  buf := setCur_buf ..
  other := core_setCur_ne s k

theorem userLoadKept_setX (s : State) (i : BitVec 4) (v : Word) : UserLoadKept s (s.setX i v) :=
  userLoadKept_setCur s rfl rfl rfl rfl

theorem userLoadKept_setUserReg (s : State) (i : BitVec 4) (v : Word) :
    UserLoadKept s (s.setCur (s.cur.setUserReg i v)) := by
  unfold CoreState.setUserReg
  split_ifs <;> exact userLoadKept_setCur s rfl rfl rfl rfl

theorem userLoadKept_writeList (vs : List (BitVec 4 × Word)) : ∀ s, UserLoadKept s (writeList true vs s) := by
  induction vs with
  | nil => exact .refl
  | cons p rest ih =>
    intro s
    obtain ⟨i, v⟩ := p
    by_cases h : i = 15
    · subst h
      exact ih s
    · rw [writeList_cons_user h]
      exact (userLoadKept_setUserReg s i v).trans (ih _)

/-- A live register that is not loaded, or that the mode's own bank holds, is as it was. -/
theorem x_writeList_user {j : BitVec 4} (vs : List (BitVec 4 × Word)) :
    ∀ s : State, (j ∉ vs.map Prod.fst ∨ (s.cur.bank ≠ .usr ∧ (j = 13 ∨ j = 14))) → (writeList true vs s).x j = s.x j := by
  induction vs with
  | nil => exact fun _ _ => rfl
  | cons p rest ih =>
    intro s hj
    obtain ⟨i, v⟩ := p
    have hrest := hj.imp_left List.not_mem_of_not_mem_cons
    by_cases h : i = 15
    · subst h
      exact ih s hrest
    · rw [writeList_cons_user h, ih _ (by rwa [cur_setCur, bank_setUserReg]), State.x, cur_setCur]
      exact reg_setUserReg_of (hj.imp_left List.ne_of_not_mem_cons) v

/-- A User register that is not loaded is as it was. -/
theorem userReg_writeList_of_not_mem {j : BitVec 4} (vs : List (BitVec 4 × Word)) :
    ∀ s : State, j ∉ vs.map Prod.fst → (writeList true vs s).cur.userReg j = s.cur.userReg j := by
  induction vs with
  | nil => exact fun _ _ => rfl
  | cons p rest ih =>
    intro s hj
    obtain ⟨i, v⟩ := p
    have hrest := List.not_mem_of_not_mem_cons hj
    by_cases h : i = 15
    · subst h
      exact ih s hrest
    · rw [writeList_cons_user h, ih _ hrest, cur_setCur]
      exact userReg_setUserReg_ne (List.ne_of_not_mem_cons hj) v

/-- Every loaded User register but R15 holds its word (R296(b)). -/
theorem userReg_writeList {vs : List (BitVec 4 × Word)} (hn : (vs.map Prod.fst).Nodup) {p : BitVec 4 × Word} (hp : p ∈ vs)
    (h15 : p.1 ≠ 15) : ∀ s, (writeList true vs s).cur.userReg p.1 = p.2 := by
  induction vs with
  | nil => cases hp
  | cons q rest ih =>
    intro s
    obtain ⟨hq, hn⟩ := List.nodup_cons.1 hn
    rcases List.mem_cons.1 hp with rfl | hp
    · rw [writeList_cons_user h15, userReg_writeList_of_not_mem rest _ hq, cur_setCur, userReg_setUserReg_same]
    · exact ih hn hp _

end Sys2Proof.Machine
end

section
/-! PROOFS. LDM without R15 (O53) and with it (O54). `ldmState` is the state both reach once the words are loaded, but for the
jump. -/

namespace Sys2Proof.Machine

/-- The base written back where `p` says so. -/
def State.setBase (p : Prop) [Decidable p] (rn : BitVec 4) (back : Word) (s : State) : State :=
  if p then s.setX rn back else s

section
variable {p : Prop} [Decidable p] {rn i : BitVec 4} {back : Word} {s : State}

theorem setBase_true (h : p) : s.setBase p rn back = s.setX rn back := if_pos h

theorem setBase_false (h : ¬p) : s.setBase p rn back = s := if_neg h

theorem writeReg_if_eq_setBase (h : p → rn ≠ 15) :
    (if p then writeReg rn back s else .next s) = .next (s.setBase p rn back) := by
  by_cases hp : p
  · rw [if_pos hp, setBase_true hp, writeReg_ne_pc (h hp)]
  · rw [if_neg hp, setBase_false hp]

theorem x_setBase_ne (h : p → i ≠ rn) : (s.setBase p rn back).x i = s.x i := by
  by_cases hp : p
  · rw [setBase_true hp, x_setX_ne _ _ _ _ (h hp)]
  · rw [setBase_false hp]

theorem userReg_setBase_ne (h : p → i ≠ rn) : (s.setBase p rn back).cur.userReg i = s.cur.userReg i := by
  by_cases hp : p
  · rw [setBase_true hp, cur_setX, userReg_setReg_ne (h hp)]
  · rw [setBase_false hp]

theorem frame_setBase {b : Bool} (h : p → b = true) : Frame (baseRegs b rn) 0 s (s.setBase p rn back) := by
  by_cases hp : p
  · rw [setBase_true hp, h hp]
    exact frame_setX s rn back
  · rw [setBase_false hp]
    exact (Frame.refl s).mono (List.nil_subset _)

theorem userLoadKept_setBase : UserLoadKept s (s.setBase p rn back) := by
  by_cases hp : p
  · rw [setBase_true hp]
    exact userLoadKept_setX s rn back
  · rw [setBase_false hp]
    exact .refl s

end

/-- The state after the loads of LDM: the base before the registers or after them (R292, R295). -/
def ldmState (wb : LdmWriteBack) (user : Bool) (rn : BitVec 4) (back : Word) (vs : List (BitVec 4 × Word)) (u : State) :
    State :=
  (writeList user vs (u.setBase (wb = .before) rn back)).setBase (wb = .after) rn back

section
variable {wb : LdmWriteBack} {written : Bool} {rn : BitVec 4} {back : Word} {vs : List (BitVec 4 × Word)} {u : State}
  (hw : written = true ↔ wb ≠ .never)
include hw

/-- A loaded register that the write-back leaves is not a base written last. -/
theorem ne_base_of_after {i : BitVec 4} (hbase : i = rn → written = false) (h : wb = .after) : i ≠ rn := fun e => by
  rw [hw.2 (by rw [h]; decide)] at hbase
  exact absurd (hbase e) (by decide)

theorem frame_loaded :
    Frame (baseRegs written rn ++ writtenRegs vs) 0 u (writeList false vs (u.setBase (wb = .before) rn back)) :=
  (frame_setBase fun h => hw.2 (by rw [h]; decide)).trans (frame_writeList vs _)

theorem frame_base_after (s : State) : Frame (baseRegs written rn) 0 s (s.setBase (wb = .after) rn back) :=
  frame_setBase fun h => hw.2 (by rw [h]; decide)

theorem frame_ldmState : Frame (baseRegs written rn ++ writtenRegs vs) 0 u (ldmState wb false rn back vs u) :=
  ((frame_loaded hw).trans (frame_base_after hw _)).mono (by simp)

/-- The base that is written back holds its value, in the S form too. -/
theorem x_base_ldmState (hb : wb = .before → rn ∉ vs.map Prod.fst) (user : Bool) (h : written = true) :
    (ldmState wb user rn back vs u).x rn = back := by
  unfold ldmState
  cases wb with
  | never => exact absurd rfl (hw.1 h)
  | before =>
    rw [setBase_false (by decide), setBase_true rfl]
    cases user with
    | false => rw [(frame_writeList vs _).regs _ (not_mem_writtenRegs (hb rfl)), x_setX_same]
    | true => rw [x_writeList_user vs _ (.inl (hb rfl)), x_setX_same]
  | after => rw [setBase_true rfl, x_setX_same]

theorem loadedList_ldmState (hb : wb = .before → rn ∉ vs.map Prod.fst) (hn : (vs.map Prod.fst).Nodup) :
    LoadedList written rn back vs (ldmState wb false rn back vs u) := by
  refine ⟨x_base_ldmState hw hb false, fun p hp h15 hbase => ?_⟩
  rw [ldmState, x_setBase_ne (ne_base_of_after hw hbase), x_writeList hn hp h15]

theorem userReg_ldmState (hn : (vs.map Prod.fst).Nodup) {p : BitVec 4 × Word} (hp : p ∈ vs) (h15 : p.1 ≠ 15)
    (hbase : p.1 = rn → written = false) : (ldmState wb true rn back vs u).cur.userReg p.1 = p.2 := by
  rw [ldmState, userReg_setBase_ne (ne_base_of_after hw hbase), userReg_writeList hn hp h15]

end

theorem userLoadKept_ldmState (wb : LdmWriteBack) (rn : BitVec 4) (back : Word) (vs : List (BitVec 4 × Word)) (u : State) :
    UserLoadKept u (ldmState wb true rn back vs u) :=
  (userLoadKept_setBase.trans (userLoadKept_writeList vs _)).trans userLoadKept_setBase

/-- R13 and R14 of a mode with a bank of its own are not loaded in the S form (R296(b)). -/
theorem x_ldmState_banked {u : State} {j rn : BitVec 4} (hbank : u.cur.bank ≠ .usr) (hj : j = 13 ∨ j = 14) (hne : j ≠ rn)
    (wb : LdmWriteBack) (back : Word) (vs : List (BitVec 4 × Word)) : (ldmState wb true rn back vs u).x j = u.x j := by
  have hbank' : (u.setBase (wb = .before) rn back).cur.bank ≠ .usr := by
    rwa [bank_congr userLoadKept_setBase.cpsr]
  rw [ldmState, x_setBase_ne fun _ => hne, x_writeList_user vs _ (.inr ⟨hbank', hj⟩), x_setBase_ne fun _ => hne]

/-- The registers written are of the list. -/
theorem append_writtenRegs_subset {vs : List (BitVec 4 × Word)} {regs : List (BitVec 4)} (h : vs.map Prod.fst = regs)
    {base : List (BitVec 4)} : base ++ writtenRegs vs ⊆ base ++ regs :=
  List.append_subset.2 ⟨List.subset_append_left .., fun _ hi =>
    List.mem_append_right _ (h ▸ List.mem_of_mem_filter hi)⟩

/-! What LDM runs. -/

section
variable {o : BdtOps} {s u : State} {vs : List (BitVec 4 × Word)} (hc : condPassed o.cond s.cur = true)
  (hrn : ldmWritesBack s.running o.w o.rn o.list = true → o.rn ≠ 15)
  (hl : loadList (listRegs o.list) (blockStart o.p o.u (s.x o.rn) (listRegs o.list).length) s = .next (vs, u))
include hrn

theorem base_ne_pc_of_writesBack {wb : LdmWriteBack} (h : wb ≠ .never) :
    ldmWriteBack s.running o.w o.rn o.list = wb → o.rn ≠ 15 :=
  fun e => hrn (ldmWritesBack_iff.2 (e ▸ h))

include hc hl

/-- LDM without R15 ends in `ldmState` (R292, R296(b)). -/
theorem exec_ldm_without_pc (h0 : o.list ≠ 0) (h15 : o.list.getLsbD 15 = false) :
    exec (.ldm o) s = .next (ldmState (ldmWriteBack s.running o.w o.rn o.list) (o.s == 1) o.rn
      (blockWriteBack o.u (s.x o.rn) (listRegs o.list).length) vs u) := by
  refine (conditional_passed hc _).trans ?_
  rw [loadMultiple_without_pc (transferRegs_of_ne h0 _) hl (pcOf_eq_none h15 hl),
    writeReg_if_eq_setBase (base_ne_pc_of_writesBack hrn (by decide)), bind_next,
    writeReg_if_eq_setBase (base_ne_pc_of_writesBack hrn (by decide))]
  rfl

end

/-- The words of a plain list are read in their order (R291, R292). -/
theorem loadList_plain {s : State} (regs : List (BitVec 4)) :
    ∀ (a : Word) (ws : List Word), ws.length = regs.length → PlainWords a ws s → loadList regs a s = .next (regs.zip ws, s) := by
  induction regs with
  | nil => exact fun _ _ _ _ => rfl
  | cons i rest ih =>
    intro a ws hlen hws
    obtain ⟨w, ws, rfl⟩ := List.exists_cons_of_length_eq_add_one hlen
    have first : load a .w32 s = .next (w, s) := memRead_plain (by simpa using hws 0 (Nat.succ_pos _))
    have tail : PlainWords (a + 4) ws s := fun k hk => by
      have hk' := hws (k + 1) (Nat.succ_lt_succ hk)
      rwa [Nat.mul_succ, Nat.add_comm, BitVec.ofNat_add, ← BitVec.add_assoc] at hk'
    rw [loadList, first, bind_next, ih (a + 4) ws (Nat.succ.inj hlen) tail, bind_next, List.zip_cons_cons]

/-- Every loaded register is below R15 where the list does not name it. -/
theorem ne_pc_of_mem_loaded {list : BitVec 16} (h15 : list.getLsbD 15 = false) {a : Word} {s u : State}
    {vs : List (BitVec 4 × Word)} (hl : loadList (listRegs list) a s = .next (vs, u)) {p : BitVec 4 × Word} (hp : p ∈ vs) :
    p.1 ≠ 15 := fun e => by
  have hm : p.1 ∈ listRegs list := regs_of_loadList _ _ _ _ _ hl ▸ List.mem_map_of_mem hp
  rw [e, mem_listRegs] at hm
  exact absurd (h15.symm.trans hm) (by decide)

/-- Everything the loads of a list can change (R72, R106). -/
theorem loadList_keeps (regs : List (BitVec 4)) :
    ∀ {a : Word} {s u : State} {vs : List (BitVec 4 × Word)}, loadList regs a s = .next (vs, u) → BusKept s u := by
  induction regs with
  | nil =>
    intro a s u vs e
    cases e
    exact .refl s
  | cons i rest ih =>
    intro a s u vs e
    obtain ⟨⟨v, u1⟩, h1, e⟩ := bind_eq_next.1 e
    obtain ⟨⟨vs', u2⟩, h2, e⟩ := bind_eq_next.1 e
    cases e
    exact (load_keeps h1).trans (ih h2)

/-- Settles O53: the loads, then `ldmState`, read once through the live registers and once through the User bank's. -/
theorem loadMultiple_spec : Obligations.LoadMultiple := by
  refine ⟨fun regs a ws s hlen hws => loadList_plain regs a ws hlen hws, ?_⟩
  intro o vs s u hc h0 h15 hrn n back written hl
  have hw : written = true ↔ ldmWriteBack s.running o.w o.rn o.list ≠ .never := ldmWritesBack_iff
  have hregs : vs.map Prod.fst = listRegs o.list := regs_of_loadList _ _ _ _ _ hl
  have hb : ldmWriteBack s.running o.w o.rn o.list = .before → o.rn ∉ vs.map Prod.fst :=
    fun h => hregs ▸ not_mem_of_ldmWriteBack_before h
  have hn : (vs.map Prod.fst).Nodup := nodup_of_loadList hl
  have hne {p : BitVec 4 × Word} (hp : p ∈ vs) : p.1 ≠ 15 := ne_pc_of_mem_loaded h15 hl hp
  have read : BusKept s u := loadList_keeps _ hl
  refine ⟨_, exec_ldm_without_pc hc (fun h => base_ne_pc hrn (hw.1 h) rfl) hl h0 h15, fun hs => ?plain, fun hs => ?user⟩
  case plain =>
    rw [hs]
    refine ⟨loadedList_ldmState hw hb hn, (frame_ldmState hw).mono (append_writtenRegs_subset hregs)⟩
  case user =>
    rw [hs]
    have kept := userLoadKept_ldmState (ldmWriteBack s.running o.w o.rn o.list) o.rn back vs u
    refine ⟨fun p hp hbase => userReg_ldmState hw hn hp (hne hp) hbase, fun h _ => x_base_ldmState hw hb true h,
      fun hbank j hj hjn => ?_, kept.cpsr, kept.spsr, kept.pipe, kept.buf, fun d hd => ?_⟩
    · exact x_ldmState_banked (by rwa [bank_congr read.cur.cpsr]) hj hjn _ _ _
    · exact kept.other d (by rwa [read.running])

/-! LDM with R15 (R294, R296(a)). -/

/-- The bytes of a read are bytes of memory. -/
theorem readBytes_congr {m m' : List Host.Cell} (h : ∀ o, Memory.get m' o = Memory.get m o) (o : Nat) (w : Width) :
    readBytes m' o w = readBytes m o w := by
  cases w <;> simp only [readBytes, h]

section
variable {r r' : List (BitVec 4)} {m m' : Word} {s t u : State}

/-- What a frame leaves reads the same (R77). -/
theorem Frame.plainRead (h : Frame r m s t) (c : CoreId) (a : Word) (w : Width) :
    plainRead c a w t = plainRead c a w s := by
  have bytes (b : Buf) (o : Nat) : readBytes (t.buf.cells b) o w = readBytes (s.buf.cells b) o w :=
    readBytes_congr (h.memory b) o w
  simp only [Machine.plainRead, h.kept.locate, bytes]

theorem Frame.fetches (h : Frame r m s t) {thumb : Bool} {target p0 p1 : Word} :
    Fetches thumb target t p0 p1 ↔ Fetches thumb target s p0 p1 := by
  simp only [Fetches, h.kept.running, h.plainRead]

theorem Frame.cpsr (h : Frame r 0 s t) : t.cur.cpsr = s.cur.cpsr := by
  have ones : (~~~0 : Word) = BitVec.allOnes 32 := by decide
  have h := h.status
  rwa [StatusKept, ones, BitVec.and_allOnes, BitVec.and_allOnes] at h

/-- A register write after a jump adds its register to what the jump changed. -/
theorem JumpFrame.frame (a : JumpFrame r m s t) (b : Frame r' m' t u) : JumpFrame (r ++ r') (m ||| m') s u where
  kept := a.kept.trans b.kept
  regs := fun j hj => by
    obtain ⟨h15, hr, hr'⟩ : j ≠ 15 ∧ j ∉ r ∧ j ∉ r' := by simpa using hj
    rw [b.regs j hr', a.regs j (by simpa using ⟨h15, hr⟩)]
  status := Eq.trans (statusKept_mono b.status (mask_right m m')) (statusKept_mono a.status (mask_left m m'))
  memory := fun x o => (b.memory x o).trans (a.memory x o)

/-- A frame of a jump may list more registers. -/
theorem JumpFrame.mono (h : JumpFrame r m s t) (hr : r ⊆ r') : JumpFrame r' m s t :=
  { h with regs := fun i hi => h.regs i fun hir => hi (List.cons_subset_cons 15 hr hir) }

end

theorem JumpedTo.setBase {p : Prop} [Decidable p] {rn : BitVec 4} {thumb : Bool} {target p0 p1 : Word} {t : State}
    (h : JumpedTo thumb target p0 p1 t) (hrn : p → rn ≠ 15) (back : Word) :
    JumpedTo thumb target p0 p1 (t.setBase p rn back) := by
  obtain ⟨hpc, hp0, hp1, ht, hb⟩ := h
  have kept := userLoadKept_setBase (p := p) (rn := rn) (back := back) (s := t)
  obtain ⟨k0, k1, kb⟩ := kept.pipe
  exact ⟨(x_setBase_ne fun hp => (hrn hp).symm).trans hpc, k0.trans hp0, k1.trans hp1,
    (congrArg (·.getLsbD 5) kept.cpsr).trans ht, kb.trans hb⟩

theorem x_setBase_congr {p : Prop} [Decidable p] {rn i : BitVec 4} {back : Word} {s t : State} (h : t.x i = s.x i) :
    (t.setBase p rn back).x i = (s.setBase p rn back).x i := by
  by_cases hp : p
  · rw [setBase_true hp, setBase_true hp, x_setX, x_setX, h]
  · rw [setBase_false hp, setBase_false hp, h]

/-- The loaded list is read from the registers below R15 alone. -/
theorem LoadedList.congr {written : Bool} {rn : BitVec 4} {back : Word} {vs : List (BitVec 4 × Word)} {s t : State}
    (h : LoadedList written rn back vs s) (hrn : written = true → rn ≠ 15) (hx : ∀ i, i ≠ 15 → t.x i = s.x i) :
    LoadedList written rn back vs t :=
  ⟨fun hw => (hx rn (hrn hw)).trans (h.1 hw), fun p hp h15 hbase => (hx p.1 h15).trans (h.2 p hp h15 hbase)⟩

section
variable {o : BdtOps} {s u : State} {vs : List (BitVec 4 × Word)} {v : Word} (hc : condPassed o.cond s.cur = true)
  (hrn : ldmWritesBack s.running o.w o.rn o.list = true → o.rn ≠ 15)
  (hl : loadList (listRegs o.list) (blockStart o.p o.u (s.x o.rn) (listRegs o.list).length) s = .next (vs, u))
  (h0 : o.list ≠ 0) (hpc : pcOf vs = some v)
include hc hrn hl h0 hpc

/-- LDM with R15 jumps by `load_pc` after the loaded registers, the base before them or last (R294, log 14). -/
theorem exec_ldm_with_pc (hs : o.s = 0) :
    exec (.ldm o) s = Res.bind (loadPc v (writeList false vs (u.setBase
        (ldmWriteBack s.running o.w o.rn o.list = .before) o.rn
        (blockWriteBack o.u (s.x o.rn) (listRegs o.list).length)))) fun t =>
      .next (t.setBase (ldmWriteBack s.running o.w o.rn o.list = .after) o.rn
        (blockWriteBack o.u (s.x o.rn) (listRegs o.list).length)) := by
  refine (conditional_passed hc _).trans ?_
  rw [loadMultiple_with_pc (transferRegs_of_ne h0 _) hl hpc, writeReg_if_eq_setBase (base_ne_pc_of_writesBack hrn (by decide)), bind_next]
  simp only [writeReg_if_eq_setBase (base_ne_pc_of_writesBack hrn (wb := .after) (by decide))]
  rw [if_neg (by rw [hs]; decide)]

/-- LDM with R15 and S = 1 is the exception return from `ldmState` (R296(a), log 14). -/
theorem exec_ldm_exceptionReturn (hs : o.s = 1) :
    exec (.ldm o) s = returnFromException v (ldmState (ldmWriteBack s.running o.w o.rn o.list) false o.rn
      (blockWriteBack o.u (s.x o.rn) (listRegs o.list).length) vs u) := by
  refine (conditional_passed hc _).trans ?_
  rw [loadMultiple_with_pc (transferRegs_of_ne h0 _) hl hpc, writeReg_if_eq_setBase (base_ne_pc_of_writesBack hrn (by decide)), bind_next]
  simp only [writeReg_if_eq_setBase (base_ne_pc_of_writesBack hrn (wb := .after) (by decide))]
  rw [if_pos hs]
  rfl

end

/-- Settles O54: `load_pc` starts from the state with the words loaded, which fetches as the state after the loads does; the base of
core A9 may follow. -/
theorem loadMultipleToPc : Obligations.LoadMultipleToPc := by
  intro o vs v s u hc h15 n back written hrn hl hpc
  have h0 : o.list ≠ 0 := fun h0 => by rw [h0] at h15; exact absurd h15 (by decide)
  have hw : written = true ↔ ldmWriteBack s.running o.w o.rn o.list ≠ .never := ldmWritesBack_iff
  have hregs : vs.map Prod.fst = listRegs o.list := regs_of_loadList _ _ _ _ _ hl
  have hb : ldmWriteBack s.running o.w o.rn o.list = .before → o.rn ∉ vs.map Prod.fst :=
    fun h => hregs ▸ not_mem_of_ldmWriteBack_before h
  have loaded := loadedList_ldmState (back := back) (u := u) hw hb (nodup_of_loadList hl)
  have hwritten : writtenRegs vs = (listRegs o.list).filter (· ≠ 15) := congrArg (List.filter _) hregs
  refine ⟨fun hs p0 p1 hf => ?_, fun hs => ⟨_, exec_ldm_exceptionReturn hc hrn hl h0 hpc hs, loaded, ?_⟩⟩
  · have frame := frame_loaded (rn := o.rn) (vs := vs) (back := back) (u := u) hw
    have read : BusKept s u := loadList_keeps _ hl
    obtain ⟨hthumb, htarget⟩ := loadPc_congr (frame.kept.running.trans read.running)
      (congrArg (·.getLsbD 5) (frame.cpsr.trans read.cur.cpsr)) v
    obtain ⟨t, jump, jumped, jframe⟩ := loadPc_completes (by rw [hthumb, htarget]; exact frame.fetches.2 hf)
    rw [hthumb, htarget] at jumped
    refine ⟨_, ?_, jumped.setBase (base_ne_pc_of_writesBack hrn (wb := .after) (by decide)) back, loaded.congr hrn fun i hi => ?_, ?_⟩
    · rw [exec_ldm_with_pc hc hrn hl h0 hpc hs, jump, bind_next]
    · exact x_setBase_congr (jframe.regs i (by simpa using hi))
    · refine (((frame.jump jframe).frame (frame_base_after (back := back) hw t)).mono_mask (by decide)).mono ?_
      rw [List.append_nil]
      exact List.append_subset.2 ⟨append_writtenRegs_subset hregs, List.subset_append_left ..⟩
  · exact hwritten ▸ frame_ldmState hw

end Sys2Proof.Machine
end

section
/-! PROOFS. STM (O55): what each register stores, and the words in one buffer. -/

namespace Sys2Proof.Machine

/-- For a listed register the stored value is R295's: the base is the lowest of the list exactly when no bit below it is set. -/
theorem stmValue_eq_stmWord {o : BdtOps} {i : BitVec 4} (h : i ∈ listRegs o.list) (back : Word) (s : State) :
    stmValue o back ((listRegs o.list).headD 15) s i = stmWord o back s i := by
  have hbase : (i = o.rn ∧ o.w = 1 ∧ i ≠ (listRegs o.list).headD 15 ∧ s.running = .a7) =
      (i = o.rn ∧ o.w = 1 ∧ s.running = .a7 ∧ o.list.toNat % 2 ^ i.toNat ≠ 0) := by
    rw [Ne, headD_listRegs_eq h, and_comm (a := ¬ _) (b := s.running = .a7)]
  simp only [stmValue, stmWord, hbase]
  rfl

theorem map_stmValue (o : BdtOps) (back : Word) (s : State) :
    (listRegs o.list).map (stmValue o back ((listRegs o.list).headD 15) s) = (listRegs o.list).map (stmWord o back s) :=
  List.map_congr_left fun _ h => stmValue_eq_stmWord h back s

/-- Words stored one after the other in a buffer stand there, and no other byte changes (R73, R74, R293). -/
theorem storeList_completes (b : Buf) (ws : List Word) : ∀ (a : Word) (q : Nat) (s : State), s.buf.wf →
    (∀ k < ws.length, locate s.running (alignDown (a + BitVec.ofNat 32 (4 * k)) .w32) .write s = .buffer b (q + 4 * k)) →
    ∃ t, storeList ws a s = .next t ∧ StoreFrame [] s t ∧
      (∀ k (h : k < ws.length) j, j < 4 → t.byteAt b (q + 4 * k + j) = byteOf ws[k] j) ∧
      ∀ b' o', (b' ≠ b ∨ o' < q ∨ q + 4 * ws.length ≤ o') → t.byteAt b' o' = s.byteAt b' o' := by
  induction ws with
  | nil =>
    intro a q s hwf hl
    exact ⟨s, rfl, (Frame.refl s).store, fun k h => absurd h (Nat.not_lt_zero k), fun _ _ _ => rfl⟩
  | cons w ws ih =>
    intro a q s hwf hl
    have here : locate s.running (alignDown a .w32) .write s = .buffer b q := by
      simpa using hl 0 (Nat.succ_pos _)
    obtain ⟨u, hw, ⟨bytes, outside⟩, frame, hwfu⟩ := memWrite_completes hwf here w
    have tail (k : Nat) (hk : k < ws.length) :
        locate u.running (alignDown (a + 4 + BitVec.ofNat 32 (4 * k)) .w32) .write u = .buffer b (q + 4 + 4 * k) := by
      have hk' := hl (k + 1) (Nat.succ_lt_succ hk)
      rw [Nat.mul_succ, Nat.add_comm (4 * k) 4, BitVec.ofNat_add, ← BitVec.add_assoc, ← Nat.add_assoc] at hk'
      rw [frame.kept.running, frame.kept.locate]
      exact hk'
    obtain ⟨t, run, tframe, tbytes, toutside⟩ := ih (a + 4) (q + 4) u hwfu tail
    refine ⟨t, ?_, frame.trans tframe, fun k hk j hj => ?_, fun b' o' ho => ?_⟩
    · rw [storeList, store, hw, bind_next, run]
    · cases k with
      | zero => exact (toutside b (q + j) (.inr (.inl (by omega)))).trans (bytes j hj)
      | succ k =>
        rw [show q + 4 * (k + 1) + j = q + 4 + 4 * k + j by omega]
        exact tbytes k (Nat.lt_of_succ_lt_succ hk) j hj
    · rw [List.length_cons] at ho
      have hw4 : widthBytes .w32 = 4 := rfl
      rw [toutside b' o' (ho.imp_right fun h => h.imp (by omega) (by omega)),
        outside b' o' (ho.imp_right fun h => h.imp id (by omega))]

/-- Settles O55: the stored values are R295's, the base follows, and the words of a buffer land one by one. -/
theorem storeMultiple_spec : Obligations.StoreMultiple := by
  refine ⟨?_, fun ws a b q s hwf hl => storeList_completes b ws a q s hwf hl⟩
  intro o s u hc h0 hrn n back hs
  refine (conditional_passed hc _).trans ?_
  rw [← map_stmValue] at hs
  rw [storeMultiple_of_stores (transferRegs_of_ne h0 _) hs, writeReg_if_eq_setBase hrn]
  by_cases hw : o.w = 1
  · rw [setBase_true hw, if_pos hw]
  · rw [setBase_false hw, if_neg hw]

end Sys2Proof.Machine
end

section
/-! PROOFS. The empty list (O56): all six forms run as `EmptyView.run` says. -/

namespace Sys2Proof.Machine

/-- The base of an empty list, moved by sixteen words where W is set (R297). -/
def EmptyView.based (v : EmptyView) (s u : State) : State := u.setBase (v.w = 1) v.rn (blockWriteBack v.u (s.x v.rn) 16)

/-- What an empty list does (R297): core A9 moves the base, core A7 transfers R15 too. -/
def EmptyView.run (v : EmptyView) (s : State) : Res State :=
  let start := blockStart v.p v.u (s.x v.rn) 16
  match s.running with
  | .a9 => .next (v.based s s)
  | .a7 =>
    if v.load then
      Res.bind (memRead .a7 start .w32 s) fun p =>
        if v.s = 1 then returnFromException p.1 (v.based s p.2) else branchTo p.1 (v.based s p.2)
    else Res.bind (memWrite .a7 start .w32 (storedValue 15 s) s) fun u => .next (v.based s u)

/-! What core A7 transfers (R297). -/

theorem transferRegs_a7_empty : transferRegs .a7 0 = ([15], 16) := rfl

section
variable {s : State} (hr : s.running = .a7)
include hr

/-- The one load of core A7 is of R15. -/
theorem bind_loadList_pc {α : Type} (a : Word) (f : List (BitVec 4 × Word) × State → Res α) :
    Res.bind (loadList [15] a s) f = Res.bind (memRead .a7 a .w32 s) fun p => f ([(15, p.1)], p.2) := by
  rw [loadList, load, hr, bind_bind]; rfl

/-- The one store of core A7. -/
theorem storeList_one (w a : Word) : storeList [w] a s = memWrite .a7 a .w32 w s := by
  rw [storeList, store, hr]; exact bind_next_right _

/-- After the load `load_pc` on core A7 is a plain jump (R253). -/
theorem loadPc_after_read {a d : Word} {u : State} (h : memRead .a7 a .w32 s = .next (d, u)) {p : Prop} [Decidable p]
    (rn : BitVec 4) (back v : Word) : loadPc v (u.setBase p rn back) = branchTo v (u.setBase p rn back) :=
  loadPc_a7 (userLoadKept_setBase.running.trans ((memRead_keeps _ _ _ _ _ _ h).running.trans hr)) v

end

/-- Two sequences agree if they go on alike from what the first part answers. -/
theorem bind_congr_next {α β : Type} {x : Res α} {f g : α → Res β} (h : ∀ a, x = .next a → f a = g a) :
    Res.bind x f = Res.bind x g := by
  cases x with
  | next a => exact h a rfl
  | _ => rfl

section
variable (c : CoreId) (w : BitVec 1) (rn : BitVec 4)

/-- A base outside the list is written first, where W is set (R295). -/
theorem ldmWriteBack_empty_before : (ldmWriteBack c w rn 0 = .before) = (w = 1) := by
  rcases BitVec.eq_zero_or_eq_one w with rfl | rfl <;> simp [ldmWriteBack]

theorem ldmWriteBack_empty_ne_after : ldmWriteBack c w rn 0 ≠ .after := by
  rcases BitVec.eq_zero_or_eq_one w with rfl | rfl <;> simp [ldmWriteBack]

end

/-! The six forms. -/

theorem loadMultiple_empty {o : BdtOps} {s : State} (h : o.list = 0) (hrn : o.w = 1 → o.rn ≠ 15) : loadMultiple o s =
    EmptyView.run { load := true, cond := o.cond, p := o.p, u := o.u, w := o.w, s := o.s, rn := o.rn } s := by
  unfold loadMultiple EmptyView.run
  simp only [h, ldmWriteBack_empty_before, ldmWriteBack_empty_ne_after, if_false, writeReg_if_eq_setBase hrn, bind_next,
    bind_next_right]
  cases hr : s.running with
  | a9 => rfl
  | a7 =>
    rw [transferRegs_a7_empty, bind_loadList_pc hr]
    refine bind_congr_next fun p hp => ?_
    exact congrArg (fun x => if o.s = 1 then _ else x) (loadPc_after_read hr hp _ _ _)

theorem storeMultiple_empty {o : BdtOps} {s : State} (h : o.list = 0) (hrn : o.w = 1 → o.rn ≠ 15) : storeMultiple o s =
    EmptyView.run { load := false, cond := o.cond, p := o.p, u := o.u, w := o.w, s := o.s, rn := o.rn } s := by
  unfold storeMultiple EmptyView.run
  simp only [h, writeReg_if_eq_setBase hrn]
  cases hr : s.running with
  | a9 => rfl
  | a7 =>
    rw [transferRegs_a7_empty, List.map_singleton, storeList_one hr]
    rfl

theorem push_empty {o : TPushPopOps} {s : State} (h : o.rlist = 0 ∧ o.r = 0) : push o s =
    EmptyView.run { load := false, cond := 14, p := 1, u := 0, w := 1, s := 0, rn := 13 } s := by
  rw [push, pushRegs, if_pos h, EmptyView.run]
  cases hr : s.running with
  | a9 => rfl
  | a7 =>
    rw [transferRegs_a7_empty, List.map_singleton, storeList_one hr]
    rfl

theorem pop_empty {o : TPushPopOps} {s : State} (h : o.rlist = 0 ∧ o.r = 0) : pop o s =
    EmptyView.run { load := true, cond := 14, p := 0, u := 1, w := 1, s := 0, rn := 13 } s := by
  rw [pop, popRegs, if_pos h, EmptyView.run]
  cases hr : s.running with
  | a9 => rfl
  | a7 =>
    rw [transferRegs_a7_empty, bind_loadList_pc hr]
    exact bind_congr_next fun p hp => loadPc_after_read hr hp (p := (1 : BitVec 1) = 1) 13 _ p.1

theorem thumbLoadMultiple_empty {o : TBlockOps} {s : State} (h : o.rlist = 0) : thumbLoadMultiple o s =
    EmptyView.run { load := true, cond := 14, p := 0, u := 1, w := 1, s := 0, rn := low o.rb } s := by
  have hl : ¬ (0 : BitVec 8).getLsbD o.rb.toNat = true := by rw [BitVec.ofNat_eq_ofNat, BitVec.getLsbD_zero]; decide
  have hlist : (0 : BitVec 8).setWidth 16 = 0 := rfl
  unfold thumbLoadMultiple EmptyView.run
  simp only [h, hlist, if_neg hl]
  cases hr : s.running with
  | a9 => rfl
  | a7 =>
    rw [transferRegs_a7_empty, bind_loadList_pc hr]
    exact bind_congr_next fun p hp => loadPc_after_read hr hp (p := (1 : BitVec 1) = 1) _ _ p.1

/-- A form answers its view exactly where its list is empty. -/
theorem view_of_empty {p : Prop} [Decidable p] {x v : EmptyView} (e : (if p then some x else none) = some v) : p ∧ x = v := by
  simpa using e

/-- A block transfer with an empty list runs as its condition and `EmptyView.run` (R297, R462 to R465). -/
theorem exec_of_emptyView {i : Instr} {v : EmptyView} (e : emptyView i = some v) (hrn : v.w = 1 → v.rn ≠ 15) (s : State) :
    exec i s = conditional v.cond s (v.run s) := by
  cases i with
  | ldm o => obtain ⟨h0, rfl⟩ := view_of_empty e; exact congrArg (conditional o.cond s) (loadMultiple_empty h0 hrn)
  | stm o => obtain ⟨h0, rfl⟩ := view_of_empty e; exact congrArg (conditional o.cond s) (storeMultiple_empty h0 hrn)
  | tPush o => obtain ⟨h0, rfl⟩ := view_of_empty e; exact push_empty h0
  | tPop o => obtain ⟨h0, rfl⟩ := view_of_empty e; exact pop_empty h0
  | tStmia o =>
    obtain ⟨h0, rfl⟩ := view_of_empty e
    exact storeMultiple_empty (o := thumbBlock o) (congrArg (BitVec.setWidth 16) h0) hrn
  | tLdmia o => obtain ⟨h0, rfl⟩ := view_of_empty e; exact thumbLoadMultiple_empty h0
  | _ => cases e

/-! What an empty list does on each core. -/

section
variable {v : EmptyView} {s : State}

theorem EmptyView.run_a9 (hr : s.running = .a9) : v.run s = .next (v.based s s) := by
  rw [EmptyView.run, hr]

theorem EmptyView.run_store {u : State} (hr : s.running = .a7) (hl : v.load = false)
    (hs : memWrite .a7 (blockStart v.p v.u (s.x v.rn) 16) .w32 (storedValue 15 s) s = .next u) :
    v.run s = .next (v.based s u) := by
  simp only [EmptyView.run, hr, hl, hs]
  rfl

theorem EmptyView.run_load {d : Word} {u : State} (hr : s.running = .a7) (hl : v.load = true)
    (hd : memRead .a7 (blockStart v.p v.u (s.x v.rn) 16) .w32 s = .next (d, u)) :
    v.run s = if v.s = 1 then returnFromException d (v.based s u) else branchTo d (v.based s u) := by
  simp only [EmptyView.run, hr, hl, hd]
  rfl

end

/-- Settles O56: `EmptyView.run` on each core; sixteen words are 64 bytes. -/
theorem emptyList : Obligations.EmptyList := by
  intro i v s e hc hrn start back based
  have run : exec i s = v.run s := (exec_of_emptyView e hrn s).trans (conditional_passed hc _)
  exact ⟨rfl, fun hr => run.trans (EmptyView.run_a9 hr), fun hr hl u hs => run.trans (EmptyView.run_store hr hl hs),
    fun hr hl d u hd => run.trans (EmptyView.run_load hr hl hd)⟩

end Sys2Proof.Machine
end

section
/-! PROOFS. The branches of both instruction sets (O57). Every form writes the link register and the instruction set where it has
them, then jumps; what is written before the jump is a `Frame`, over which the words at the target are still there. -/

namespace Sys2Proof.Machine

/-! The targets. -/

/-- A branch offset, scaled in the instruction word, is the signed product (R310, R470, R474). -/
theorem signExtend_append_zero {w : Nat} (x : BitVec w) (n : Nat) :
    (x ++ 0#n).signExtend 32 = BitVec.ofInt 32 (x.toInt * 2 ^ n) := by
  rw [BitVec.signExtend, BitVec.toInt_append_zero, Int.mul_comm]

theorem branchOffset_eq (imm24 : BitVec 24) : branchOffset imm24 = BitVec.ofInt 32 (imm24.toInt * 4) :=
  signExtend_append_zero imm24 2

theorem setWidth_shiftLeft_one {w : Nat} (x : BitVec w) : x.setWidth 32 <<< 1 = BitVec.ofNat 32 (2 * x.toNat) := by
  rw [← setWidth_mul_ofNat]
  exact BitVec.shiftLeft_eq_mul_twoPow _ _

/-- BLX label adds its half-word bit to the offset (R314). -/
theorem branchOffset_add_half (imm24 : BitVec 24) (h : BitVec 1) :
    branchOffset imm24 + (h.setWidth 32 <<< 1) = BitVec.ofInt 32 (imm24.toInt * 4 + 2 * h.toNat) := by
  rw [branchOffset_eq, setWidth_shiftLeft_one, BitVec.ofInt_add]
  rfl

/-! The state a branch jumps from. -/

/-- The link value in R14, where the form links (R311, R313, R314, R434, R481, R482). -/
def State.linked (link : Option Word) (s : State) : State :=
  match link with
  | none => s
  | some l => s.setX 14 l

/-- The link value in R14 and the instruction set selected (R312). -/
def State.exchanged (link : Option Word) (thumb : Bool) (s : State) : State :=
  (s.linked link).setCur ((s.linked link).cur.setT thumb)

section
variable (link : Option Word) (thumb : Bool) (s : State)

theorem frame_linked : Frame (if link.isSome then [14] else []) 0 s (s.linked link) := by
  cases link with
  | none => exact .refl s
  | some l => exact frame_setX s 14 l

theorem t_linked : (s.linked link).cur.t = s.cur.t := congrArg (·.getLsbD 5) (frame_linked link s).cpsr

theorem frame_exchanged : Frame (if link.isSome then [14] else []) tMask s (s.exchanged link thumb) := by
  simpa [State.exchanged] using (frame_linked link s).trans (frame_setT (s.linked link) thumb)

theorem t_exchanged : (s.exchanged link thumb).cur.t = thumb := by
  rw [State.exchanged, cur_setCur, t_setT]

end

theorem x_linked {link : Option Word} {l : Word} (h : link = some l) (s : State) : (s.linked link).x 14 = l := by
  subst h
  exact x_setX_same s 14 l

theorem x_exchanged {link : Option Word} {l : Word} (h : link = some l) (thumb : Bool) (s : State) :
    (s.exchanged link thumb).x 14 = l :=
  ((frame_setT (s.linked link) thumb).regs 14 (by simp)).trans (x_linked h s)

theorem onA9_a9 {s : State} (h : s.running = .a9) (i : Instr) (body : Res State) : onA9 i s body = body := by
  simp only [onA9, h]

theorem exec_blxLabel_a9 {s : State} (h : s.running = .a9) (o : BlxLabelOps) : exec (.blxLabel o) s =
    branchTo (s.x 15 + BitVec.ofInt 32 (o.imm24.toInt * 4 + 2 * o.h.toNat)) (s.exchanged (some (s.x 15 - 4)) true) := by
  rw [← branchOffset_add_half, ← BitVec.add_assoc]
  show execBlxLabel o s = _
  rw [execBlxLabel, h]
  rfl

/-! How a branch completes. -/

section
variable {i : Instr} {v : JumpView} {s : State}

/-- A jump from a state that is linked and set up for the view's instruction set is the view's jump. -/
theorem JumpView.completes_of_branchTo {u : State} (run : exec i s = branchTo v.target u) (ht : u.cur.t = v.thumb)
    (hlink : ∀ l, v.link = some l → u.x 14 = l) (hframe : Frame (if v.link.isSome then [14] else []) v.mask s u) :
    v.Completes i s := by
  intro p0 p1 hfetch
  have hu : Fetches u.cur.t v.target u p0 p1 := by rw [ht]; exact hframe.fetches.2 hfetch
  obtain ⟨t, jump, jumped, jframe⟩ := branchTo_completes hu
  rw [ht] at jumped
  refine ⟨t, run.trans jump, jumped, fun l e => (jframe.regs 14 (by decide)).trans (hlink l e), ?_⟩
  simpa using hframe.jump jframe

/-- B and BL stay in the instruction set in force (R310, R311, R470, R474, R481). -/
theorem JumpView.completes_in_place (run : exec i s = branchTo v.target (s.linked v.link)) (ht : v.thumb = s.cur.t)
    (hm : v.mask = 0) : v.Completes i s :=
  completes_of_branchTo run ((t_linked _ s).trans ht.symm) (fun _ e => x_linked e s) (hm ▸ frame_linked v.link s)

/-- BX and BLX select theirs (R312 to R314, R433, R434, R482). -/
theorem JumpView.completes_exchange (run : exec i s = branchTo v.target (s.exchanged v.link v.thumb))
    (hm : v.mask = tMask) : v.Completes i s :=
  completes_of_branchTo run (t_exchanged _ _ s) (fun _ e => x_exchanged e _ s) (hm ▸ frame_exchanged v.link v.thumb s)

end

theorem armJump_completes {i : Instr} {v : JumpView} {s : State} (e : armJump s i = some v)
    (hc : condPassed v.cond s.cur = true) : v.Completes i s := by
  cases i with
  | b o | bl o =>
    cases e
    refine JumpView.completes_in_place ((conditional_passed hc _).trans ?_) rfl rfl
    rw [branchOffset_eq]; rfl
  | bx o => cases e; exact JumpView.completes_exchange (conditional_passed hc _) rfl
  | blxReg o =>
    obtain ⟨hr, e⟩ := Option.ite_none_right_eq_some.1 e
    cases e
    exact JumpView.completes_exchange ((conditional_passed hc _).trans (onA9_a9 hr _ _)) rfl
  | blxLabel o =>
    obtain ⟨hr, e⟩ := Option.ite_none_right_eq_some.1 e
    cases e
    exact JumpView.completes_exchange (exec_blxLabel_a9 hr o) rfl
  | _ => cases e

theorem thumbJump_completes {i : Instr} {v : JumpView} {s : State} (e : thumbJump s i = some v)
    (hc : condPassed v.cond s.cur = true) : v.Completes i s := by
  cases i with
  | tBx o | tBxH1 o => cases e; exact JumpView.completes_exchange rfl rfl
  | tBlxReg o =>
    obtain ⟨hr, e⟩ := Option.ite_none_right_eq_some.1 e
    cases e
    exact JumpView.completes_exchange (onA9_a9 hr _ _) rfl
  | tBcond o =>
    cases e
    refine JumpView.completes_in_place ((conditional_passed hc _).trans ?_) rfl rfl
    exact congrArg (fun d => branchTo (s.x 15 + d) s) (signExtend_append_zero o.soffset 1)
  | tB o =>
    cases e
    refine JumpView.completes_in_place ?_ rfl rfl
    exact congrArg (fun d => branchTo (s.x 15 + d) s) (signExtend_append_zero o.offset 1)
  | tBlSuffix o =>
    cases e
    refine JumpView.completes_in_place ?_ rfl rfl
    rw [← setWidth_shiftLeft_one]; rfl
  | tBlxSuffix o =>
    obtain ⟨hr, e⟩ := Option.ite_none_right_eq_some.1 e
    cases e
    refine JumpView.completes_exchange ((onA9_a9 hr _ _).trans ?_) rfl
    rw [setWidth_shiftLeft_one]; rfl
  | _ => cases e

/-- Settles O57: each form is a jump in place or an exchange. -/
theorem jumps : Obligations.Jumps := fun _ _ _ e hc =>
  e.elim (fun h => armJump_completes h hc) fun h => thumbJump_completes h hc

end Sys2Proof.Machine
end

section
/-! PROOFS. Which instructions change the mode and the saved status (O34): those outside `mayChangeMode` are ordinary, and each
effect of the others, too, leaves the other core alone. -/

namespace Sys2Proof.Machine

/-- Which core runs stays, and so does, of every other core, what no access touches (R18). -/
structure Apart (s t : State) : Prop where
  running : t.running = s.running
  other   : ∀ c, c ≠ s.running → CoreBusKept (s.core c) (t.core c)

theorem Apart.trans {s t u : State} (a : Apart s t) (b : Apart t u) : Apart s u where
  running := b.running.trans a.running
  other := fun c hc => (a.other c hc).trans (b.other c (by rw [a.running]; exact hc))

theorem Ordinary.apart {s t : State} (h : Ordinary s t) : Apart s t := ⟨h.running, h.other⟩

theorem apart_setCur (s : State) (k : CoreState) : Apart s (s.setCur k) where
  running := setCur_running s k
  other := fun c hc => by rw [core_setCur_ne s k c hc]; exact .refl _

theorem apart_branchTo {target : Word} {s t : State} (e : branchTo target s = .next t) : Apart s t :=
  (ordinary_branchTo e).apart

theorem apart_switchMode {m : Word} {s t : State} (e : switchMode m s = .next t) : Apart s t := by
  obtain ⟨_, -, rfl⟩ := switchMode_spec e
  exact apart_setCur _ _

theorem apart_writeCpsr {v : Word} {s t : State} (e : writeCpsr v s = .next t) : Apart s t := by
  obtain ⟨_, -, rfl⟩ := writeCpsr_spec e
  exact apart_setCur _ _

theorem apart_msrSpsr {f : BitVec 4} {v : Word} {s t : State} (e : msrSpsr f v s = .next t) : Apart s t := by
  obtain ⟨_, -, e⟩ := bind_eq_next.1 e
  rw [writeSpsr_spec e]
  exact apart_setCur _ _

theorem apart_returnFromException {v : Word} {s t : State} (e : returnFromException v s = .next t) : Apart s t := by
  obtain ⟨_, -, e⟩ := bind_eq_next.1 e
  obtain ⟨_, hw, e⟩ := bind_eq_next.1 e
  exact (apart_writeCpsr hw).trans (apart_branchTo e)

theorem apart_enterException {m v lr : Word} {s t : State} (e : enterException m v lr s = .next t) : Apart s t := by
  obtain ⟨_, hm, e⟩ := bind_eq_next.1 e
  exact (apart_switchMode hm).trans ((apart_setCur _ _).trans (apart_branchTo e))

/-- Every effect of an instruction is the executing core's. -/
theorem Effect.apart {i : Instr} {s t : State} (h : Effect i s t) : Apart s t := by
  cases h with
  | ordinary h => exact h.apart
  | exceptionReturn _ u v h e => exact h.apart.trans (apart_returnFromException e)
  | cpsrWrite _ f v e => exact apart_writeCpsr e
  | spsrWrite _ f v e => exact apart_msrSpsr e
  | swi _ e => exact apart_enterException e

/-- An ordinary instruction may change N, Z, C, V, Q and T, and no other status bit. -/
theorem ordinaryMask_eq_not : ordinaryMask = ~~~0xF8000020 := by decide

theorem Ordinary.statusKept {s t : State} (h : Ordinary s t) : StatusKept 0xF8000020 s t := by
  unfold StatusKept
  rw [← ordinaryMask_eq_not]
  exact h.status

/-- Settles O34: outside `mayChangeMode` an instruction is ordinary, and every effect is apart from the other core. -/
theorem onlyTheseChangeMode : Obligations.OnlyTheseChangeMode := by
  intro i s t e
  have apart := (exec_effect e).apart
  refine ⟨fun hm => ?_, apart.running, fun c hc => ?_⟩
  · have o := exec_ordinary hm e
    exact ⟨o.statusKept, mode_of_status o.status, o.spsr⟩
  · have k := apart.other c hc
    exact ⟨k.r, k.cpsr, k.bankR13, k.bankR14, k.spsr, k.pipe0, k.pipe1⟩

end Sys2Proof.Machine
end

section
/-! PROOFS. Status-register transfer (O35, O36): MSR merges its operand bit by bit (R326, R328, R329), MRS is a register write
(R325). -/

namespace Sys2Proof.Machine

/-! The bits MSR selects. -/

/-- A field selects the bits of its byte (R326). -/
theorem getLsbD_msrMask (field : BitVec 4) : ∀ j < 32, (msrMask field).getLsbD j = field.getLsbD (j / 8) := by
  revert field; decide

theorem getLsbD_merge (old mask v : Word) {j : Nat} (h : j < 32) :
    (merge old mask v).getLsbD j = if mask.getLsbD j = true then v.getLsbD j else old.getLsbD j := by
  simp only [merge, BitVec.getLsbD_or, BitVec.getLsbD_and, BitVec.getLsbD_not, h]
  cases mask.getLsbD j <;> simp

theorem getLsbD_flagsByte : ∀ j < 32, (0xFF000000 : Word).getLsbD j = decide (24 ≤ j) := by decide

theorem getLsbD_notT : ∀ j < 32, (0xFFFFFFDF : Word).getLsbD j = decide (j ≠ 5) := by decide

/-- Of the CPSR, MSR writes never T, and in User mode the flags byte alone (R328). -/
theorem getLsbD_cpsrMask (field : BitVec 4) (k : CoreState) {j : Nat} (h : j < 32) :
    (cpsrMask field k).getLsbD j = true ↔ field.getLsbD (j / 8) = true ∧ j ≠ 5 ∧ (k.mode = 0x10 → 24 ≤ j) := by
  rw [cpsrMask, BitVec.getLsbD_and, getLsbD_notT j h, Bool.and_eq_true, decide_eq_true_iff]
  split
  · next hm =>
    rw [BitVec.getLsbD_and, getLsbD_msrMask field j h, getLsbD_flagsByte j h, Bool.and_eq_true, decide_eq_true_iff]
    tauto
  · next hm =>
    rw [getLsbD_msrMask field j h]
    tauto

/-! What runs. -/

/-- Both operand forms of MSR to the CPSR run as the condition and `msrCpsr` of the operand (R327, R328). -/
theorem exec_msrCpsr {i : Instr} {cc field : BitVec 4} {v : Word} {s : State}
    (hi : (∃ o, i = .msrCpsrReg o ∧ o.cond = cc ∧ o.mask = field ∧ v = s.x o.rm) ∨
      (∃ o, i = .msrCpsrImm o ∧ o.cond = cc ∧ o.mask = field ∧ v = (o.imm8.setWidth 32).rotateRight (2 * o.rotate.toNat))) :
    exec i s = conditional cc s (msrCpsr field v s) := by
  rcases hi with ⟨o, rfl, rfl, rfl, rfl⟩ | ⟨o, rfl, rfl, rfl, rfl⟩
  · rfl
  · rfl

/-- Both operand forms of MSR to the SPSR run as the condition and `msrSpsr` of the operand (R327, R329). -/
theorem exec_msrSpsr {i : Instr} {cc field : BitVec 4} {v : Word} {s : State}
    (hi : (∃ o, i = .msrSpsrReg o ∧ o.cond = cc ∧ o.mask = field ∧ v = s.x o.rm) ∨
      (∃ o, i = .msrSpsrImm o ∧ o.cond = cc ∧ o.mask = field ∧ v = (o.imm8.setWidth 32).rotateRight (2 * o.rotate.toNat))) :
    exec i s = conditional cc s (msrSpsr field v s) := by
  rcases hi with ⟨o, rfl, rfl, rfl, rfl⟩ | ⟨o, rfl, rfl, rfl, rfl⟩
  · rfl
  · rfl

/-- Settles O35: the merged value, written as R22 writes a CPSR. -/
theorem msrCpsr_spec : Obligations.MsrCpsr := by
  intro i cc field v s hi hc
  have run : exec i s = writeCpsr (merge s.cur.cpsr (cpsrMask field s.cur) v) s :=
    (exec_msrCpsr hi).trans (conditional_passed hc _)
  refine ⟨merge s.cur.cpsr (cpsrMask field s.cur) v, fun j hj => ?_, fun b hb => ?_, fun hb => ?_⟩
  · simp only [getLsbD_merge _ _ _ hj, getLsbD_cpsrMask field s.cur hj]
  · rw [run, writeCpsr_valid hb]
  · rw [run, writeCpsr_invalid hb]

/-! The saved status. -/

theorem readSpsr_of_get {s : State} {v : Word} (h : s.cur.spsr.get s.cur.bank = some v) : readSpsr s = .next v := by
  simp only [readSpsr, h]

theorem writeSpsr_of_get {s : State} {old : Word} (h : s.cur.spsr.get s.cur.bank = some old) (v : Word) :
    writeSpsr v s = .next (s.setCur { s.cur with spsr := s.cur.spsr.set s.cur.bank v }) := by
  simp only [writeSpsr, h]

/-- Where the mode has an SPSR, MSR writes the merged value to it, unchecked (R329). -/
theorem msrSpsr_of_get {s : State} {old : Word} (h : s.cur.spsr.get s.cur.bank = some old) (field : BitVec 4) (v : Word) :
    msrSpsr field v s =
      .next (s.setCur { s.cur with spsr := s.cur.spsr.set s.cur.bank (merge old (msrMask field) v) }) := by
  rw [msrSpsr, readSpsr_of_get h, bind_next, writeSpsr_of_get h]

/-- MRS writes the status register its R field names (R325). -/
theorem exec_mrs {o : MrsOps} {v : Word} {s : State} (hc : condPassed o.cond s.cur = true)
    (hv : (o.r = 0 ∧ v = s.cur.cpsr) ∨ (o.r = 1 ∧ s.cur.spsr.get s.cur.bank = some v)) :
    exec (.mrs o) s = writeReg o.rd v s := by
  refine (conditional_passed hc _).trans ?_
  rcases hv with ⟨hr, rfl⟩ | ⟨hr, hv⟩
  · exact if_pos hr
  · rw [if_neg (by rw [hr]; decide), readSpsr_of_get hv, bind_next]

/-- A write of a register and nothing else completes as that result, a jump where the register is R15 (R250). -/
theorem completes_of_writeReg {i : Instr} {rd : BitVec 4} {v : Word} {s : State} (run : exec i s = writeReg rd v s)
    (cond : BitVec 4) :
    Result.Completes i { cond := cond, rd := rd, value := v, flags := s.cur.flags, q := s.cur.q, mask := 0 } s := by
  refine ⟨fun hd => ?_, fun hd p0 p1 hf => ?_⟩
  · refine ⟨s.setX rd v, run.trans (writeReg_ne_pc hd v s), x_setX_same s rd v, ?_, ?_, frame_setX s rd v⟩
    · rw [cur_setX]; rfl
    · rw [cur_setX]; rfl
  · obtain ⟨hflags, hq⟩ := flags_refilled s.cur.t v p0 p1 s
    exact ⟨_, run.trans ((if_pos hd).trans (branchTo_fetches hf)), jumpedTo_refilled _ _ _ _ _ rfl, hflags, hq,
      jumpFrame_refilled _ _ _ _ _⟩

/-- Settles O36: MRS is a register write, MSR a merge, and without an SPSR both fault as R27 says. -/
theorem psrTransfer : Obligations.PsrTransfer := by
  refine ⟨fun o v s hc hv => completes_of_writeReg (exec_mrs hc hv) o.cond, fun i cc field v old s hi hc hold => ?_,
    fun o s hc hr hm => ?_, fun i cc s hi hc hm => ?_⟩
  · refine ⟨merge old (msrMask field) v, fun j hj => ?_, ?_⟩
    · rw [getLsbD_merge _ _ _ hj, getLsbD_msrMask field j hj]
    · rw [exec_msrSpsr hi, conditional_passed hc, msrSpsr_of_get hold]
  · obtain ⟨mrs, -⟩ := spsrFaults s hm o.cond hc
    exact mrs o rfl hr
  · obtain ⟨-, msrReg, msrImm, -⟩ := spsrFaults s hm cc hc
    rcases hi with ⟨o, rfl, ho⟩ | ⟨o, rfl, ho⟩
    · exact msrReg o ho
    · exact msrImm o ho

end Sys2Proof.Machine
end

section
/-! PROOFS. The multiplies with one result (O42) and the instructions of core A9 (O44). Each writes the status bits it sets and then
its register: `StatusWrite` is what is true between the two. -/

namespace Sys2Proof.Machine

/-! A status write. -/

/-- From `s` to `u` the flags and Q became these, within `mask`, and nothing else changed. -/
structure StatusWrite (flags : Flags) (q : Bool) (mask : Word) (s u : State) : Prop where
  flags : u.cur.flags = flags
  q     : u.cur.q = q
  t     : u.cur.t = s.cur.t
  frame : Frame [] mask s u

theorem statusWrite_refl (s : State) : StatusWrite s.cur.flags s.cur.q 0 s s := ⟨rfl, rfl, rfl, .refl s⟩

theorem statusWrite_setFlags (f : Flags) (s : State) : StatusWrite f s.cur.q nzcvMask s (s.setFlags f) := by
  refine ⟨flags_setFlags s f, ?_, ?_, frame_setFlags s f⟩
  · rw [cur_setFlags, setFlags_q]
  · rw [cur_setFlags, t_setFlags]

/-- The flags of a multiply, written where its S bit asks (R340). -/
theorem statusWrite_nz (b : BitVec 1) (n z : Bool) (s : State) :
    StatusWrite (nzFlags b n z s) s.cur.q (if b = 1 then nzcvMask else 0) s
      (if b = 1 then s.setFlags { n := n, z := z, c := s.cur.c, v := s.cur.v } else s) := by
  unfold nzFlags
  split
  · exact statusWrite_setFlags _ s
  · exact statusWrite_refl s

theorem statusWrite_setNz (b : BitVec 1) (r : Word) (s : State) :
    StatusWrite (nzFlags b (r.getLsbD 31) (r == 0) s) s.cur.q (if b = 1 then nzcvMask else 0) s (setNz b r s) :=
  statusWrite_nz b _ _ s

theorem statusWrite_setNzLong (b : BitVec 1) (p : Dword) (s : State) :
    StatusWrite (nzFlags b (p.getLsbD 63) (p == 0) s) s.cur.q (if b = 1 then nzcvMask else 0) s (setNzLong b p s) :=
  statusWrite_nz b _ _ s

/-- A bit of `mask` set or cleared in the status leaves the bits outside `mask`. -/
theorem setBit_and_not_mask {i : Nat} {mask : Word} (hi : i < 32) (hm : mask.getLsbD i = true) (w : Word) (b : Bool) :
    setBit w i b &&& ~~~mask = w &&& ~~~mask := by
  apply BitVec.eq_of_getLsbD_eq
  intro j hj
  rw [BitVec.getLsbD_and, BitVec.getLsbD_and, getLsbD_setBit _ _ _ _ hi]
  by_cases h : j = i
  · subst h; simp [hm]
  · rw [if_neg h]

theorem frame_setCpsr {s : State} {mask w : Word} (h : w &&& ~~~mask = s.cur.cpsr &&& ~~~mask) :
    Frame [] mask s (s.setCur { s.cur with cpsr := w }) where
  kept := by
    constructor
    case other => exact fun c hc => core_setCur_ne s _ c hc
    all_goals simp
  regs := fun i _ => by rw [State.x, cur_setCur]; rfl
  status := by rw [StatusKept, cur_setCur]; exact h
  pipe := by simp [PipeKept]
  memory := fun _ _ => by simp [State.byteAt]

/-- Q is sticky, and no other bit of the status goes with it (R351). -/
theorem statusWrite_orQ (sat : Bool) (s : State) : StatusWrite s.cur.flags (s.cur.q || sat) qMask s (s.orQ sat) := by
  cases sat with
  | false => exact ⟨rfl, (Bool.or_false _).symm, rfl, { Frame.refl s with status := rfl }⟩
  | true =>
    have bit (j : Nat) : (s.orQ true).cur.cpsr.getLsbD j = if j = 27 then true else s.cur.cpsr.getLsbD j := by
      rw [show (s.orQ true).cur = _ from cur_setCur _ _, getLsbD_setBit _ _ _ _ (by decide)]
    refine ⟨?_, (bit 27).trans (Bool.or_true _).symm, bit 5, frame_setCpsr (setBit_and_not_mask (by decide) (by decide) _ _)⟩
    unfold CoreState.flags CoreState.n CoreState.z CoreState.c CoreState.v
    rw [bit, bit, bit, bit]
    rfl

/-- A register write after a status write completes as that result, a jump where the register is R15 (R250). -/
theorem Result.completes_of_statusWrite {i : Instr} {r : Result} {s u : State} (run : exec i s = writeReg r.rd r.value u)
    (w : StatusWrite r.flags r.q r.mask s u) : r.Completes i s := by
  refine ⟨fun hd => ⟨u.setX r.rd r.value, run.trans (writeReg_ne_pc hd _ u), x_setX_same u _ _, ?_, ?_, ?_⟩,
    fun hd p0 p1 hf => ?_⟩
  · rw [cur_setX, ← w.flags]; rfl
  · rw [cur_setX, ← w.q]; rfl
  · simpa using w.frame.trans (frame_setX u r.rd r.value)
  · rw [← w.t, ← w.frame.fetches] at hf
    obtain ⟨hflags, hq⟩ := flags_refilled u.cur.t r.value p0 p1 u
    refine ⟨_, run.trans ((if_pos hd).trans (branchTo_fetches hf)), ?_, hflags.trans w.flags, hq.trans w.q, ?_⟩
    · rw [← w.t]; exact jumpedTo_refilled _ _ _ _ _ rfl
    · simpa using w.frame.jump (jumpFrame_refilled u.cur.t r.value p0 p1 u)

/-! MUL and MLA. -/

theorem mul_eq_ofNat {n : Nat} (a b : BitVec n) : a * b = BitVec.ofNat n (a.toNat * b.toNat) := by
  rw [BitVec.ofNat_mul, BitVec.ofNat_toNat, BitVec.ofNat_toNat, BitVec.setWidth_eq, BitVec.setWidth_eq]

theorem mul_add_eq_ofNat {n : Nat} (a b c : BitVec n) : a * b + c = BitVec.ofNat n (a.toNat * b.toNat + c.toNat) := by
  rw [BitVec.ofNat_add, ← mul_eq_ofNat, BitVec.ofNat_toNat, BitVec.setWidth_eq]

/-- Settles O42: the word product is the exact one modulo 2^32, and the flags come before the register. -/
theorem multiplyResult_spec : Obligations.MultiplyResult := by
  intro i r s e hc
  cases i with
  | mul o =>
    cases e
    refine Result.completes_of_statusWrite ((conditional_passed hc _).trans ?_) (statusWrite_setNz o.s _ s)
    rw [mul_eq_ofNat]
  | mla o =>
    cases e
    refine Result.completes_of_statusWrite ((conditional_passed hc _).trans ?_) (statusWrite_setNz o.s _ s)
    rw [mul_add_eq_ofNat]
  | _ => cases e

/-! Saturation (R351). -/

theorem signedSat32_eq (v : Int) : signedSat32 v = (BitVec.ofInt 32 (clamp v), outOfRange v) := by
  unfold signedSat32 clamp outOfRange
  by_cases hi : 2 ^ 31 - 1 < v
  · rw [if_pos hi, min_eq_left hi.le, decide_eq_true hi]; rfl
  · rw [if_neg hi, min_eq_right (not_lt.1 hi), decide_eq_false hi, Bool.false_or]
    by_cases lo : v < -(2 ^ 31)
    · rw [if_pos lo, max_eq_left lo.le, decide_eq_true lo]; rfl
    · rw [if_neg lo, max_eq_right (not_lt.1 lo), decide_eq_false lo]

theorem clamp_mem (v : Int) : -(2 ^ 31) ≤ clamp v ∧ clamp v < 2 ^ 31 := by
  unfold clamp; omega

theorem toInt_ofInt_clamp (v : Int) : (BitVec.ofInt 32 (clamp v)).toInt = clamp v :=
  BitVec.toInt_ofInt_eq_self (by decide) (clamp_mem v).1 (clamp_mem v).2

theorem saturated_eq (rd : BitVec 4) (v : Int) (doubled : Bool) (s : State) :
    saturated rd (signedSat32 v) doubled s = writeReg rd (BitVec.ofInt 32 (clamp v)) (s.orQ (doubled || outOfRange v)) := by
  rw [saturated, signedSat32_eq, Bool.or_comm]

/-! Half-words (R360). -/

theorem toInt_halfOf (sel : BitVec 1) (v : Word) : (halfOf sel v).toInt = halfInt sel v := by
  unfold halfOf halfInt
  rcases BitVec.eq_zero_or_eq_one sel with rfl | rfl
  · exact BitVec.toInt_signExtend_of_le (by decide)
  · exact BitVec.toInt_signExtend_of_le (by decide)

theorem halfOf_mul (x y : BitVec 1) (v w : Word) : halfOf x v * halfOf y w = BitVec.ofInt 32 (halfInt x v * halfInt y w) := by
  rw [BitVec.ofInt_mul, ← toInt_halfOf, ← toInt_halfOf, BitVec.ofInt_toInt, BitVec.ofInt_toInt]

/-- A shift to the right is a floor division, on either side of zero. -/
theorem wideProduct_eq (v : Word) (y : BitVec 1) (w : Word) : wideProduct v y w = v.toInt * halfInt y w / 2 ^ 16 := by
  rw [wideProduct, toInt_halfOf]
  cases v.toInt * halfInt y w with
  | ofNat n => exact Int.shiftRight_eq_div_pow (Int.ofNat n) 16
  | negSucc n => exact Int.shiftRight_eq_div_pow (Int.negSucc n) 16

/-! Leading zeros (R350). -/

/-- One more than the place of the highest set bit below bit `n`, 0 without one. -/
def highestBit (v : Word) (n : Nat) : Nat := (List.range n).foldl (fun acc i => if v.getLsbD i then i + 1 else acc) 0

theorem clz32_eq (v : Word) : clz32 v = 32 - highestBit v 32 := rfl

theorem highestBit_succ (v : Word) (n : Nat) :
    highestBit v (n + 1) = if v.getLsbD n then n + 1 else highestBit v n := by
  rw [highestBit, List.range_succ, List.foldl_append]
  rfl

theorem highestBit_eq_size (v : Word) : ∀ n, highestBit v n = (v.toNat % 2 ^ n).size
  | 0 => by rw [pow_zero, Nat.mod_one, Nat.size_zero]; rfl
  | n + 1 => by
    have low : v.toNat % 2 ^ n < 2 ^ n := Nat.mod_lt _ (by positivity)
    rw [highestBit_succ, highestBit_eq_size v n, getLsbD_eq_decide, Nat.mod_pow_succ]
    rcases Nat.mod_two_eq_zero_or_one (v.toNat / 2 ^ n) with hb | hb
    · simp [hb]
    · rw [hb, if_pos (by decide), mul_one]
      refine le_antisymm (Nat.lt_size.2 (Nat.le_add_left _ _)) (Nat.size_le.2 ?_)
      omega

theorem size_eq_log2_add_one {n : Nat} (h : n ≠ 0) : n.size = n.log2 + 1 :=
  le_antisymm (Nat.size_le.2 Nat.lt_log2_self) (Nat.lt_size.2 (Nat.log2_self_le h))

theorem ofNat_clz32 (v : Word) :
    BitVec.ofNat 32 (clz32 v) = BitVec.ofInt 32 (if v = 0 then 32 else 31 - Nat.log2 v.toNat) := by
  rw [clz32_eq, highestBit_eq_size, Nat.mod_eq_of_lt v.isLt, ← BitVec.ofInt_natCast]
  congr 1
  by_cases hv : v = 0
  · subst hv; rfl
  · have h0 : v.toNat ≠ 0 := BitVec.toNat_ne.1 hv
    have hlt : v.toNat.log2 < 32 := (Nat.log2_lt h0).2 v.isLt
    rw [if_neg hv, size_eq_log2_add_one h0]
    omega

/-! The instructions of core A9. -/

/-- Past its condition and on core A9, a write of Q and then of the exact value modulo 2^32 completes as that result. -/
theorem dspResult_completes {i : Instr} {cond rd : BitVec 4} {body : Res State} {v : Int} {sat : Bool} {s : State}
    (run : exec i s = conditional cond s (onA9 i s body)) (hr : s.running = .a9) (hc : condPassed cond s.cur = true)
    (hb : body = writeReg rd (BitVec.ofInt 32 v) (s.orQ sat)) : (dspResult cond rd v sat s).Completes i s :=
  Result.completes_of_statusWrite (run.trans ((conditional_passed hc _).trans ((onA9_a9 hr i body).trans hb)))
    (statusWrite_orQ sat s)

/-- Settles O44: of each instruction there is left to see that its value is the exact one. -/
theorem dspResult_spec : Obligations.DspResult := by
  intro i r s e hr hc
  cases i with
  | clz o => cases e; exact dspResult_completes rfl hr hc (congrArg (writeReg o.rd · s) (ofNat_clz32 _))
  | qadd o | qsub o => cases e; exact dspResult_completes rfl hr hc (saturated_eq _ _ _ _)
  | qdadd o | qdsub o =>
    cases e
    refine dspResult_completes rfl hr hc ?_
    rw [saturated_eq, signedSat32_eq (2 * _), toInt_ofInt_clamp]
  | smulXy o => cases e; exact dspResult_completes rfl hr hc (congrArg (writeReg o.rd · s) (halfOf_mul _ _ _ _))
  | smlaXy o =>
    cases e
    refine dspResult_completes rfl hr hc ?_
    rw [accumulateQ, toInt_halfOf, toInt_halfOf]
  | smulwY o =>
    cases e
    exact dspResult_completes rfl hr hc (congrArg (fun p => writeReg o.rd (BitVec.ofInt 32 p) s) (wideProduct_eq _ _ _))
  | smlawY o =>
    cases e
    refine dspResult_completes rfl hr hc ?_
    rw [accumulateQ, wideProduct_eq]
  | _ => cases e

end Sys2Proof.Machine
end

section
/-! PROOFS. The multiplies with a 64-bit result (O43): the low half is written first, and either half may be a jump (R250, R343). -/

namespace Sys2Proof.Machine

/-! What a jump leaves to a second register write. -/

section
variable {r r' : List (BitVec 4)} {m m' : Word} {s t u : State} {thumb : Bool} {target p0 p1 : Word}

/-- Instruction fetches depend on memory and on how it is reached alone (R107). -/
theorem JumpFrame.fetches (h : JumpFrame r m s t) : Fetches thumb target t p0 p1 ↔ Fetches thumb target s p0 p1 := by
  have bytes (b : Buf) (o : Nat) (w : Width) : readBytes (t.buf.cells b) o w = readBytes (s.buf.cells b) o w :=
    readBytes_congr (h.memory b) o w
  simp only [Fetches, plainRead, h.kept.running, h.kept.locate, bytes]

theorem JumpFrame.trans (a : JumpFrame r m s t) (b : JumpFrame r' m' t u) : JumpFrame (r ++ r') (m ||| m') s u where
  kept := a.kept.trans b.kept
  regs := fun j hj => by
    obtain ⟨h15, hr, hr'⟩ : j ≠ 15 ∧ j ∉ r ∧ j ∉ r' := by simpa using hj
    rw [b.regs j (by simpa using ⟨h15, hr'⟩), a.regs j (by simpa using ⟨h15, hr⟩)]
  status := Eq.trans (statusKept_mono b.status (mask_right m m')) (statusKept_mono a.status (mask_left m m'))
  memory := fun x o => (b.memory x o).trans (a.memory x o)

theorem JumpedTo.setX (h : JumpedTo thumb target p0 p1 t) {i : BitVec 4} (hi : i ≠ 15) (v : Word) :
    JumpedTo thumb target p0 p1 (t.setX i v) :=
  h.setBase (p := True) (fun _ => hi) v

/-- A jump over plain memory keeps the flags, beside its frame (R174). -/
theorem branchTo_keeps_flags (h : Fetches s.cur.t target s p0 p1) :
    ∃ t, branchTo target s = .next t ∧ JumpedTo s.cur.t target p0 p1 t ∧ t.cur.flags = s.cur.flags ∧ JumpFrame [] 0 s t :=
  ⟨_, branchTo_fetches h, jumpedTo_refilled _ _ _ _ _ rfl, (flags_refilled _ _ _ _ _).1, jumpFrame_refilled _ _ _ _ _⟩

end

theorem flags_setX (s : State) (i : BitVec 4) (v : Word) : (s.setX i v).cur.flags = s.cur.flags := by
  rw [cur_setX]; rfl

theorem t_setX (s : State) (i : BitVec 4) (v : Word) : (s.setX i v).cur.t = s.cur.t := by
  rw [cur_setX]; rfl

/-! The two halves of a result, by which of them goes to R15. -/

section
variable {hi lo : BitVec 4} {s : State} (p : Dword)

theorem writeLong_low (hlo : lo ≠ 15) :
    writeLong hi lo p s = writeReg hi (p.extractLsb' 32 32) (s.setX lo (p.extractLsb' 0 32)) := by
  rw [writeLong, writeReg_ne_pc hlo, bind_next]

theorem writeLong_low_pc {t : State} (hlo : lo = 15) (jump : branchTo (p.extractLsb' 0 32) s = .next t) :
    writeLong hi lo p s = writeReg hi (p.extractLsb' 32 32) t := by
  rw [writeLong, hlo, writeReg_pc, jump, bind_next]

end

/-- A status write and then both halves complete as that result. -/
theorem LongResult.completes_of_statusWrite {i : Instr} {r : LongResult} {q : Bool} {s u : State}
    (run : exec i s = writeLong r.rdHi r.rdLo r.value u) (w : StatusWrite r.flags q r.mask s u) : r.Completes i s := by
  refine ⟨fun hhi hlo => ?_, fun hhi hlo p0 p1 hf => ?_, fun hhi hlo p0 p1 hf => ?_, fun hhi hlo p0 p1 q0 q1 hl hh => ?_⟩
  · refine ⟨_, run.trans ((writeLong_low _ hlo).trans (writeReg_ne_pc hhi _ _)), x_setX_same _ _ _, fun hne => ?_, ?_, ?_⟩
    · rw [x_setX_ne _ _ _ _ hne, x_setX_same]
    · rw [flags_setX, flags_setX, w.flags]
    · simpa using ((w.frame.trans (frame_setX u _ _)).trans (frame_setX _ r.rdHi _)).mono
        (List.Perm.swap r.rdHi r.rdLo []).subset
  · have frame := w.frame.trans (frame_setX u r.rdLo (r.value.extractLsb' 0 32))
    rw [← frame.fetches, ← w.t, ← t_setX u r.rdLo (r.value.extractLsb' 0 32)] at hf
    obtain ⟨t, jump, jumped, flags, jframe⟩ := branchTo_keeps_flags hf
    refine ⟨t, run.trans ((writeLong_low _ hlo).trans ((if_pos hhi).trans jump)), ?_, ?_, ?_, ?_⟩
    · rwa [t_setX, w.t] at jumped
    · rw [jframe.regs _ (by simpa using hlo), x_setX_same]
    · rw [flags, flags_setX, w.flags]
    · simpa using frame.jump jframe
  · rw [← w.frame.fetches, ← w.t] at hf
    obtain ⟨t, jump, jumped, flags, jframe⟩ := branchTo_keeps_flags hf
    refine ⟨_, run.trans ((writeLong_low_pc _ hlo jump).trans (writeReg_ne_pc hhi _ _)), ?_, x_setX_same _ _ _, ?_, ?_⟩
    · rw [← w.t]; exact jumped.setX hhi _
    · rw [flags_setX, flags, w.flags]
    · simpa using (w.frame.jump jframe).frame (frame_setX t r.rdHi _)
  · rw [← w.frame.fetches, ← w.t] at hl
    obtain ⟨t, jump, ⟨-, -, -, ht, -⟩, flags, jframe⟩ := branchTo_keeps_flags hl
    have frame := w.frame.jump jframe
    rw [← frame.fetches, ← w.t, ← ht] at hh
    obtain ⟨t', jump', jumped', flags', jframe'⟩ := branchTo_keeps_flags hh
    refine ⟨t', run.trans ((writeLong_low_pc _ hlo jump).trans ((if_pos hhi).trans jump')), ?_, ?_, ?_⟩
    · rwa [ht, w.t] at jumped'
    · rw [flags', flags, w.flags]
    · simpa using frame.trans jframe'

/-! The exact products. -/

theorem unsignedProduct_eq (a b : Word) : unsignedProduct a b = BitVec.ofNat 64 (a.toNat * b.toNat) := by
  rw [BitVec.ofNat_mul, BitVec.ofNat_toNat, BitVec.ofNat_toNat]; rfl

theorem signedProduct_eq (a b : Word) : signedProduct a b = BitVec.ofInt 64 (a.toInt * b.toInt) :=
  (BitVec.ofInt_mul _ _).symm

/-- A long multiply of the exact value completes with it. -/
theorem longResult_completes {i : Instr} {o : MullOps} {p p' : Dword} {s : State}
    (run : exec i s = conditional o.cond s (longMultiply o p s)) (hc : condPassed o.cond s.cur = true) (hp : p = p') :
    (longResult o p' s).Completes i s := by
  subst hp
  exact LongResult.completes_of_statusWrite (run.trans (conditional_passed hc _)) (statusWrite_setNzLong o.s p s)

/-- Settles O43: the model's products are the exact ones modulo 2^64. -/
theorem longMultiplyResult : Obligations.LongMultiplyResult := by
  intro i r s e hc
  cases i with
  | umull o => cases e; exact longResult_completes rfl hc (unsignedProduct_eq _ _)
  | umlal o => cases e; exact longResult_completes rfl hc (congrArg (· + _) (unsignedProduct_eq _ _))
  | smull o => cases e; exact longResult_completes rfl hc (signedProduct_eq _ _)
  | smlal o => cases e; exact longResult_completes rfl hc (congrArg (· + _) (signedProduct_eq _ _))
  | smlalXy o =>
    obtain ⟨hr, e⟩ := Option.ite_none_right_eq_some.1 e
    cases e
    refine LongResult.completes_of_statusWrite ((conditional_passed hc _).trans ((onA9_a9 hr _ _).trans ?_)) (statusWrite_refl s)
    rw [signedProduct_eq, toInt_halfOf, toInt_halfOf, BitVec.add_comm]
    rfl
  | _ => cases e

end Sys2Proof.Machine
end

section
/-! PROOFS. The unknown instructions (O45): every row the running core does not know ends in `logUnknown`. -/

namespace Sys2Proof.Machine

/-- On core A7 a class of core A9 is unknown; on core A9 it is when its body is (R266, R390). -/
theorem onA9_unknown {i : Instr} {s : State} {body : Res State} (h : s.running = .a9 → body = logUnknown i s) :
    onA9 i s body = logUnknown i s := by
  unfold onA9
  split
  · next hr => exact h hr
  · rfl

theorem doubleLoad_odd {rd : BitVec 4} (h : rd.getLsbD 0 = true) (i : Instr) (rn : BitVec 4) (a : Address) (s : State) :
    doubleLoad i rd rn a s = logUnknown i s := if_pos h

theorem doubleStore_odd {rd : BitVec 4} (h : rd.getLsbD 0 = true) (i : Instr) (rn : BitVec 4) (a : Address) (s : State) :
    doubleStore i rd rn a s = logUnknown i s := if_pos h

/-- Past its condition an unknown instruction is the record of it (R182, R390). -/
theorem exec_of_isUnknown {i : Instr} {s : State} (h : isUnknown s.running i = true)
    (hc : ∀ cc, armCond i = some cc → condPassed cc s.cur = true) : exec i s = logUnknown i s := by
  have only_a7 (body : Res State) (h7 : (s.running == .a7) = true) : onA9 i s body = logUnknown i s :=
    onA9_unknown fun h9 => by rw [h9] at h7; cases h7
  have odd {rd : BitVec 4} (h : (s.running == .a7 || rd.getLsbD 0) = true) (h9 : s.running = .a9) : rd.getLsbD 0 = true := by
    rwa [h9] at h
  cases i with
  | bkpt o | coprocOther o | unkMiscA w | unkMiscB w | unkImm w | unk1001 w | unkMedia w | unkLdcStc w | unkCdp w
  | unkDoubleA7 w => exact conditional_passed (hc _ rfl) _
  | tBkpt o | tUnk1011 w | tUnkDe w | tUnk11101 w => rfl
  | blxReg o | clz o | qadd o | qsub o | qdadd o | qdsub o | smlaXy o | smlawY o | smulwY o | smlalXy o | smulXy o | mrc o
  | mcr o => exact (conditional_passed (hc _ rfl) _).trans (only_a7 _ h)
  | tBlxReg o | tBlxSuffix o => exact only_a7 _ h
  | ldrdImm o | ldrdReg o =>
    exact (conditional_passed (hc _ rfl) _).trans (onA9_unknown fun h9 => doubleLoad_odd (odd h h9) _ _ _ s)
  | strdImm o | strdReg o =>
    exact (conditional_passed (hc _ rfl) _).trans (onA9_unknown fun h9 => doubleStore_odd (odd h h9) _ _ _ s)
  | _ => cases h

/-- Settles O45: the record is `logUnknown`, which appends to the executing core's log alone. -/
theorem unknownInstructions : Obligations.UnknownInstructions := fun _ _ => exec_of_isUnknown

end Sys2Proof.Machine
end

section
/-! PROOFS. Coprocessor 15 on core A9 (O58): what `cp15Read` and `cp15Write` do at each code of CRn, CRm and opcode2, then MRC
and MCR over them. -/

namespace Sys2Proof.Machine

/-! The registers, code by code (R386 to R388). -/

section
variable (v : Word) (s : State)

theorem cp15Read_control : cp15Read 1 0 0 s = (s.ctl.cp15Control, s) := rfl
theorem cp15Read_dtcm : cp15Read 9 1 0 s = (s.ctl.cp15Dtcm, s) := rfl
theorem cp15Read_itcm : cp15Read 9 1 1 s = (s.ctl.cp15Itcm, s) := rfl

theorem cp15Write_control :
    cp15Write 1 0 0 v s = rebuildA9 { s with ctl := { s.ctl with cp15Control := v } } := rfl
theorem cp15Write_dtcm : cp15Write 9 1 0 v s = rebuildA9 { s with ctl := { s.ctl with cp15Dtcm := v } } := rfl
theorem cp15Write_itcm : cp15Write 9 1 1 v s = rebuildA9 { s with ctl := { s.ctl with cp15Itcm := v } } := rfl

variable {n m : BitVec 4} {k : BitVec 3}

theorem cp15Write_wait (h : n = 7 ∧ ((m = 0 ∧ k = 4) ∨ (m = 8 ∧ k = 2))) : cp15Write n m k v s = halt .a9 s := by
  obtain ⟨rfl, ⟨rfl, rfl⟩ | ⟨rfl, rfl⟩⟩ := h <;> rfl

variable (hcontrol : ¬(n = 1 ∧ m = 0 ∧ k = 0)) (hdtcm : ¬(n = 9 ∧ m = 1 ∧ k = 0)) (hitcm : ¬(n = 9 ∧ m = 1 ∧ k = 1))
include hcontrol hdtcm hitcm

theorem cp15Read_unlisted : cp15Read n m k s = s.draw := by
  rw [cp15Read, if_neg hcontrol, if_neg hdtcm, if_neg hitcm]

theorem cp15Write_unlisted (hwait : ¬(n = 7 ∧ ((m = 0 ∧ k = 4) ∨ (m = 8 ∧ k = 2)))) : cp15Write n m k v s = s := by
  rw [cp15Write, if_neg hcontrol, if_neg hdtcm, if_neg hitcm, if_neg hwait]

end

/-- Every page lies in the whole address space, whatever the page size. -/
theorem page_lt_whole (par : Parameters) (a : Word) :
    a.toNat / par.pageSize < (2 ^ 32 + par.pageSize - 1) / par.pageSize := by
  have hpos : 0 < par.pageSize := Nat.two_pow_pos _
  rw [Nat.lt_iff_add_one_le, ← Nat.add_div_right _ hpos]
  exact Nat.div_le_div_right (by have := a.isLt; omega)

/-- The rebuild after a write leaves tables that agree with `Resolve` (R93). -/
theorem tablesFresh_rebuildA9 (s : State) : TablesFresh .a9 (rebuildA9 s) := fun a d =>
  locate_updateMemoryMap .a9 0 (2 ^ 32) s a d (by simp) (page_lt_whole s.par a)

/-! The two instructions past their condition (R385, R386). -/

section
variable {o : CoprocOps} {s : State} (hr : s.running = .a9) (hc : condPassed o.cond s.cur = true)
include hr hc

theorem exec_mrc {v : Word} {t : State} (h : cp15Read o.crn o.crm o.op2 s = (v, t)) :
    exec (.mrc o) s = .next (if o.rd = 15 then t.setFlags (mrcFlags v) else t.setX o.rd v) := by
  refine (conditional_passed hc _).trans ((onA9_a9 hr _ _).trans ?_)
  rw [h]

theorem exec_mcr : exec (.mcr o) s = .next (cp15Write o.crn o.crm o.op2 (s.x o.rd) s) :=
  (conditional_passed hc _).trans (onA9_a9 hr _ _)

/-- MRC of a register whose read changes nothing changes its destination alone: `Rd`, or the flags. -/
theorem mrc_completes {v : Word} (h : cp15Read o.crn o.crm o.op2 s = (v, s)) :
    (o.rd ≠ 15 → ∃ t, exec (.mrc o) s = .next t ∧ t.x o.rd = v ∧ Frame [o.rd] 0 s t) ∧
    (o.rd = 15 → FlagsComplete (.mrc o) (mrcFlags v) s) := by
  rw [FlagsComplete, exec_mrc hr hc h]
  constructor
  · intro hd
    exact ⟨_, congrArg _ (if_neg hd), x_setX_same _ _ _, frame_setX _ _ _⟩
  · intro hd
    exact ⟨_, congrArg _ (if_pos hd), flags_setFlags _ _, frame_setFlags _ _⟩

/-- MCR that stores into the region control rebuilds the tables and changes nothing else. -/
theorem mcr_completes {ctl : RegionControl}
    (h : cp15Write o.crn o.crm o.op2 (s.x o.rd) s = rebuildA9 { s with ctl := ctl }) :
    ∃ t, exec (.mcr o) s = .next t ∧ t.ctl = ctl ∧ TablesFresh .a9 t ∧
      t = { s with ctl := ctl, a9 := { s.a9 with pageTable := t.a9.pageTable } } :=
  ⟨_, (exec_mcr hr hc).trans (congrArg _ h), rfl, tablesFresh_rebuildA9 _, rfl⟩

end

/-- Settles O58: each clause is the case of `cp15Read` or `cp15Write` that its code selects. -/
theorem cp15Access : Obligations.Cp15Access := by
  intro o s hr hc
  refine ⟨?_, ?_, ?_, ?_, ?_⟩
  · rintro v (⟨⟨hn, hm, hk⟩, rfl⟩ | ⟨⟨hn, hm, hk⟩, rfl⟩ | ⟨⟨hn, hm, hk⟩, rfl⟩) <;> refine mrc_completes hr hc ?_ <;>
      rw [hn, hm, hk]
    · exact cp15Read_control s
    · exact cp15Read_dtcm s
    · exact cp15Read_itcm s
  · intro hcontrol hdtcm hitcm
    exact ⟨_, _, exec_mrc hr hc (cp15Read_unlisted s hcontrol hdtcm hitcm)⟩
  · rintro ctl (⟨⟨hn, hm, hk⟩, rfl⟩ | ⟨⟨hn, hm, hk⟩, rfl⟩ | ⟨⟨hn, hm, hk⟩, rfl⟩) <;> refine mcr_completes hr hc ?_ <;>
      rw [hn, hm, hk]
    · exact cp15Write_control _ s
    · exact cp15Write_dtcm _ s
    · exact cp15Write_itcm _ s
  · intro hwait
    rw [exec_mcr hr hc, cp15Write_wait _ s hwait]
    rfl
  · intro hcontrol hdtcm hitcm hwait
    rw [exec_mcr hr hc, cp15Write_unlisted _ s hcontrol hdtcm hitcm hwait]

end Sys2Proof.Machine
end

section
/-! PROOFS. The Thumb register instructions (O59): a result of formats 1 to 4 is a register write over its flags, a result without
flags a register write alone, a compare the flags alone. -/

namespace Sys2Proof.Machine

/-- No low register is R15. -/
theorem low_ne_pc : ∀ i : BitVec 3, low i ≠ 15 := by decide

theorem setX_setFlags_comm (s : State) (i : BitVec 4) (v : Word) (f : Flags) :
    (s.setX i v).setFlags f = (s.setFlags f).setX i v := by
  simp only [State.setX, State.setFlags, cur_setCur, setCur_setCur]
  rfl

theorem thumbAlu_eq_writeReg (rd : BitVec 3) (a : Alu) (s : State) :
    thumbAlu rd a s = writeReg (low rd) a.result (s.setFlags a.flags) := by
  rw [thumbAlu, setX_setFlags_comm, writeReg_ne_pc (low_ne_pc rd)]

/-- A low register's result completes with its flags. -/
theorem thumbResult_completes {i : Instr} {rd : BitVec 3} {r : Word × Flags} {s : State}
    (run : exec i s = thumbAlu rd { result := r.1, flags := r.2 } s) : (thumbResult (low rd) r s).Completes i s :=
  Result.completes_of_statusWrite (run.trans (thumbAlu_eq_writeReg ..)) (statusWrite_setFlags r.2 s)

/-- Formats 1 to 4: shifts and logical results as they stand, sums and differences by `alu_sum` and `alu_diff`. -/
theorem thumbAluOp_completes {i : Instr} {r : Result} {s : State} (e : thumbAluOp s i = some r) : r.Completes i s := by
  cases i with
  | tLslImm o | tLsrImm o | tAsrImm o | tLslReg o | tLsrReg o | tAsrReg o | tRorReg o => cases e; exact thumbResult_completes rfl
  | tMovImm8 o | tAnd o | tEor o | tOrr o | tBic o | tMvn o => cases e; exact thumbResult_completes rfl
  | tAddReg o | tAddImm3 o | tAddImm8 o | tAdc o =>
    cases e; exact thumbResult_completes (congrArg (thumbAlu o.rd · s) (alu_sum ..))
  | tSubReg o | tSubImm3 o | tSubImm8 o | tSbc o | tNeg o =>
    cases e; exact thumbResult_completes (congrArg (thumbAlu o.rd · s) (alu_diff ..))
  | tMul o =>
    cases e
    rw [← mul_eq_ofNat]
    exact thumbResult_completes rfl
  | _ => cases e

/-- A write of one register completes as that result. -/
theorem thumbPlain_completes {i : Instr} {rd : BitVec 4} {v : Word} {s : State} (run : exec i s = writeReg rd v s) :
    (thumbPlain rd v s).Completes i s := completes_of_writeReg run 14

/-- The forms without flags: the high registers may be R15, the others never are. -/
theorem thumbPlainOp_completes {i : Instr} {r : Result} {s : State} (e : thumbPlainOp s i = some r) : r.Completes i s := by
  cases i with
  | tAddHi o | tMovHi o => cases e; exact thumbPlain_completes rfl
  | tAddPc o | tAddSp o =>
    cases e
    rw [← setWidth_mul_ofNat]
    exact thumbPlain_completes (writeReg_ne_pc (low_ne_pc o.rd) _ s).symm
  | tIncSp o | tDecSp o =>
    cases e
    rw [← setWidth_mul_ofNat]
    exact thumbPlain_completes (writeReg_ne_pc (by decide) _ s).symm
  | tBlPrefix o =>
    cases e
    have offset : (o.offset ++ 0#12).signExtend 32 = BitVec.ofInt 32 (o.offset.toInt * 4096) :=
      signExtend_append_zero o.offset 12
    rw [← offset]
    exact thumbPlain_completes (writeReg_ne_pc (by decide) _ s).symm
  | _ => cases e

/-- A compare runs as the write of its flags (R409, R421 to R423, R431). -/
theorem exec_of_thumbCompareOp {i : Instr} {f : Flags} {s : State} (e : thumbCompareOp s i = some f) :
    exec i s = .next (s.setFlags f) := by
  cases i with
  | tTst o => cases e; rfl
  | tCmn o => cases e; exact congrArg (thumbCompare · s) (alu_sum ..)
  | tCmpImm8 o | tCmpReg o | tCmpHi o => cases e; exact congrArg (thumbCompare · s) (alu_diff ..)
  | _ => cases e

/-- Settles O59: each family by its own lemma. -/
theorem thumbResults : Obligations.ThumbResults :=
  ⟨fun _ _ _ e => e.elim thumbAluOp_completes thumbPlainOp_completes,
   fun _ _ _ e => ⟨_, exec_of_thumbCompareOp e, flags_setFlags _ _, frame_setFlags _ _⟩⟩

end Sys2Proof.Machine
end

section
/-! PROOFS. PUSH, POP, STMIA and LDMIA with a non-empty list (O60). The loads end in `ldmState`, as LDM's do; STMIA is an STM. -/

namespace Sys2Proof.Machine

/-! The registers. -/

theorem toNat_low (i : BitVec 3) : (low i).toNat = i.toNat := by
  rw [low, BitVec.toNat_append]; simp

theorem mem_lowRegs {list : BitVec 8} {i : BitVec 4} : i ∈ lowRegs list ↔ list.getLsbD i.toNat = true := by
  rw [lowRegs, mem_listRegs, BitVec.getLsbD_setWidth, decide_eq_true i.isLt, Bool.true_and]

theorem lt_eight_of_mem_lowRegs {list : BitVec 8} {i : BitVec 4} (h : i ∈ lowRegs list) : i.toNat < 8 :=
  BitVec.lt_of_getLsbD (mem_lowRegs.1 h)

/-- A register from R8 up is in no list of low registers. -/
theorem ne_of_mem_lowRegs {list : BitVec 8} {i j : BitVec 4} (h : i ∈ lowRegs list) (hj : 8 ≤ j.toNat) : i ≠ j := fun e =>
  absurd (lt_eight_of_mem_lowRegs h) (by rw [e]; exact Nat.not_lt.2 hj)

theorem setWidth_ne_zero {list : BitVec 8} (h : list ≠ 0) : list.setWidth 16 ≠ 0 := fun e =>
  h (BitVec.eq_of_getLsbD_eq fun n hn => by
    have hbit := congrArg (·.getLsbD n) e
    simpa [Nat.lt_trans hn (show 8 < 16 by decide)] using hbit)

section
variable {o : TPushPopOps} {extra : BitVec 4}

theorem mem_stackRegs {i : BitVec 4} : i ∈ stackRegs o extra ↔ i ∈ lowRegs o.rlist ∨ (o.r = 1 ∧ i = extra) := by
  rw [stackRegs, List.mem_append]
  by_cases h : o.r = 1 <;> simp [h]

/-- The register added to the low ones is above them. -/
theorem nodup_stackRegs (h : 8 ≤ extra.toNat) : (stackRegs o extra).Nodup := by
  refine List.nodup_append.2 ⟨nodup_listRegs _, ?_, fun i hi j hj => ?_⟩
  · split <;> simp
  · have : j = extra := by split at hj <;> simp_all
    exact this ▸ ne_of_mem_lowRegs hi h

theorem length_stackRegs : (lowRegs o.rlist).length + o.r.toNat = (stackRegs o extra).length := by
  rw [stackRegs, List.length_append]
  rcases BitVec.eq_zero_or_eq_one o.r with h | h <;> rw [h] <;> rfl

variable (h : ¬(o.rlist = 0 ∧ o.r = 0)) (c : CoreId)
include h

theorem pushRegs_of_ne : pushRegs c o = (stackRegs o 14, (stackRegs o 14).length) :=
  (if_neg h).trans (congrArg (Prod.mk _) length_stackRegs)

theorem popRegs_of_ne : popRegs c o = (stackRegs o 15, (stackRegs o 15).length) :=
  (if_neg h).trans (congrArg (Prod.mk _) length_stackRegs)

end

/-! PUSH and STMIA. -/

/-- PUSH never stores R15 from its list. -/
theorem map_storeReg_stackRegs (o : TPushPopOps) (s : State) :
    (stackRegs o 14).map (fun i => storeReg i s) = (stackRegs o 14).map s.x := by
  refine List.map_congr_left fun i hi => if_neg ?_
  rcases mem_stackRegs.1 hi with hi | ⟨-, rfl⟩
  · exact ne_of_mem_lowRegs hi (by decide)
  · decide

theorem exec_tPush {o : TPushPopOps} {s u : State} (h : ¬(o.rlist = 0 ∧ o.r = 0))
    (hs : storeList ((stackRegs o 14).map s.x) (s.x 13 - BitVec.ofNat 32 (4 * (stackRegs o 14).length)) s = .next u) :
    exec (.tPush o) s = .next (u.setX 13 (s.x 13 - BitVec.ofNat 32 (4 * (stackRegs o 14).length))) := by
  show push o s = _
  have back : blockWriteBack 0 (s.x 13) (stackRegs o 14).length = s.x 13 - BitVec.ofNat 32 (4 * (stackRegs o 14).length) := rfl
  simp only [push, pushRegs_of_ne h, map_storeReg_stackRegs, back, hs, bind_next]

/-- STMIA is the STM of its ARM form (R464). -/
theorem exec_tStmia (o : TBlockOps) (s : State) : exec (.tStmia o) s = exec (.stm (thumbBlock o)) s := rfl

/-- Its stored values: no low register is R15, and the bits below the base are those of the eight-bit list. -/
theorem stmWord_thumbBlock {o : TBlockOps} {i : BitVec 4} (h : i ∈ lowRegs o.rlist) (back : Word) (s : State) :
    stmWord (thumbBlock o) back s i =
      if i = low o.rb ∧ s.running = .a7 ∧ o.rlist.toNat % 2 ^ o.rb.toNat ≠ 0 then back else s.x i := by
  have hlist : (o.rlist.setWidth 16).toNat = o.rlist.toNat := BitVec.toNat_setWidth_of_le (by decide)
  have hbase : (i = low o.rb ∧ (1 : BitVec 1) = 1 ∧ s.running = .a7 ∧ (o.rlist.setWidth 16).toNat % 2 ^ i.toNat ≠ 0) ↔
      (i = low o.rb ∧ s.running = .a7 ∧ o.rlist.toNat % 2 ^ o.rb.toNat ≠ 0) := by
    rw [hlist]
    refine and_congr_right fun hi => ?_
    rw [hi, toNat_low, eq_self, true_and]
  rw [stmWord, if_neg (ne_of_mem_lowRegs h (by decide))]
  exact if_congr hbase rfl rfl

/-! POP and LDMIA. -/

/-- After the loads of POP the registers and the stack pointer are those of a base written last (R463). -/
theorem pop_of_loads {o : TPushPopOps} {vs : List (BitVec 4 × Word)} {s u : State} (h : ¬(o.rlist = 0 ∧ o.r = 0))
    (hl : loadList (stackRegs o 15) (s.x 13) s = .next (vs, u)) :
    pop o s =
      let t := ldmState .after false 13 (s.x 13 + BitVec.ofNat 32 (4 * (stackRegs o 15).length)) vs u
      match pcOf vs with
      | none => .next t
      | some v => loadPc v t := by
  unfold pop
  simp only [popRegs_of_ne h, hl, bind_next]
  rfl

section
variable {o : TPushPopOps} {vs : List (BitVec 4 × Word)} {s u : State}
  (hl : loadList (stackRegs o 15) (s.x 13) s = .next (vs, u))
include hl

theorem loadedList_pop (sp : Word) : LoadedList true 13 sp vs (ldmState .after false 13 sp vs u) :=
  loadedList_ldmState (by decide) (fun e => nomatch e) (regs_of_loadList _ _ _ _ _ hl ▸ nodup_stackRegs (by decide))

theorem frame_pop (sp : Word) : Frame (13 :: stackRegs o 15) 0 u (ldmState .after false 13 sp vs u) :=
  (frame_ldmState (written := true) (by decide)).mono (append_writtenRegs_subset (regs_of_loadList _ _ _ _ _ hl))

/-- Without PC nothing is loaded for R15. -/
theorem pcOf_pop (hr : o.r = 0) : pcOf vs = none := by
  rw [← Option.not_isSome_iff_eq_none, pcOf_isSome, regs_of_loadList _ _ _ _ _ hl, mem_stackRegs, hr]
  rintro (hm | ⟨h1, -⟩)
  · exact ne_of_mem_lowRegs hm (by decide) rfl
  · exact absurd h1 (by decide)

/-- The jump of POP starts from the loaded registers, over which the words at the target are still there (R253, R463). -/
theorem loadPc_pop {v p0 p1 : Word} (sp : Word) (hf : Fetches (loadPcThumb v s) (loadPcTarget v s) u p0 p1) :
    ∃ t, loadPc v (ldmState .after false 13 sp vs u) = .next t ∧
      JumpedTo (loadPcThumb v s) (loadPcTarget v s) p0 p1 t ∧ LoadedList true 13 sp vs t ∧
      JumpFrame (13 :: stackRegs o 15) tMask u t := by
  have read : BusKept s u := loadList_keeps _ hl
  have frame := frame_pop hl sp
  obtain ⟨hthumb, htarget⟩ := loadPc_congr (frame.kept.running.trans read.running)
    (congrArg (·.getLsbD 5) (frame.cpsr.trans read.cur.cpsr)) v
  obtain ⟨t, jump, jumped, jframe⟩ := loadPc_completes (by rw [hthumb, htarget]; exact frame.fetches.2 hf)
  rw [hthumb, htarget] at jumped
  have loaded := (loadedList_pop hl sp).congr (fun _ => by decide) fun i hi => jframe.regs i (by simpa using hi)
  exact ⟨t, jump, jumped, loaded, by simpa using frame.jump jframe⟩

end

/-- When LDMIA writes its base (R465): before the loads, unless it is listed. -/
def ldmiaWriteBack (o : TBlockOps) : LdmWriteBack := if o.rlist.getLsbD o.rb.toNat then .never else .before

theorem ldmiaWriteBack_iff (o : TBlockOps) : (!o.rlist.getLsbD o.rb.toNat) = true ↔ ldmiaWriteBack o ≠ .never := by
  unfold ldmiaWriteBack
  cases o.rlist.getLsbD o.rb.toNat <;> decide

theorem not_mem_of_ldmiaWriteBack_before {o : TBlockOps} (h : ldmiaWriteBack o = .before) : low o.rb ∉ lowRegs o.rlist := by
  rw [mem_lowRegs, toNat_low]
  intro hm
  rw [ldmiaWriteBack, if_pos hm] at h
  exact nomatch h

theorem exec_tLdmia {o : TBlockOps} {vs : List (BitVec 4 × Word)} {s u : State} (h : o.rlist ≠ 0)
    (hl : loadList (lowRegs o.rlist) (s.x (low o.rb)) s = .next (vs, u)) :
    exec (.tLdmia o) s = .next (ldmState (ldmiaWriteBack o) false (low o.rb)
      (s.x (low o.rb) + BitVec.ofNat 32 (4 * (lowRegs o.rlist).length)) vs u) := by
  have hpc : pcOf vs = none := pcOf_eq_none (by simp) hl
  show thumbLoadMultiple o s = _
  unfold thumbLoadMultiple ldmiaWriteBack
  rw [transferRegs_of_ne (setWidth_ne_zero h)]
  change Res.bind (loadList (lowRegs o.rlist) (s.x (low o.rb)) s) _ = _
  simp only [hl, bind_next, hpc]
  cases o.rlist.getLsbD o.rb.toNat <;> rfl

/-- Settles O60: the stores of PUSH and STMIA are the listed words, the loads end in `ldmState`. -/
theorem thumbBlockTransfer : Obligations.ThumbBlockTransfer := by
  refine ⟨fun _ _ _ => exec_tPush, ?pop, ?stmia, ?ldmia⟩
  case pop =>
    intro o vs s u h sp hl
    have run : exec (.tPop o) s = _ := pop_of_loads h hl
    refine ⟨fun hr => ?_, fun _ v p0 p1 hpc hf => ?_⟩
    · rw [pcOf_pop hl hr] at run
      exact ⟨_, run, loadedList_pop hl sp, frame_pop hl sp⟩
    · rw [hpc] at run
      obtain ⟨t, jump, jumped⟩ := loadPc_pop hl sp hf
      exact ⟨t, run.trans jump, jumped⟩
  case stmia =>
    intro o s u h rb back hs
    have words : (lowRegs o.rlist).map (stmWord (thumbBlock o) back s) = _ :=
      List.map_congr_left fun _ hi => stmWord_thumbBlock hi back s
    rw [exec_tStmia]
    exact storeMultiple_spec.1 (thumbBlock o) s u rfl (setWidth_ne_zero h) (fun _ => low_ne_pc o.rb)
      ((congrArg (storeList · (s.x rb) s) words).trans hs)
  case ldmia =>
    intro o vs s u h rb written hl
    have hregs : vs.map Prod.fst = lowRegs o.rlist := regs_of_loadList _ _ _ _ _ hl
    exact ⟨_, exec_tLdmia h hl,
      loadedList_ldmState (ldmiaWriteBack_iff o) (fun e => hregs ▸ not_mem_of_ldmiaWriteBack_before e) (nodup_of_loadList hl),
      (frame_ldmState (ldmiaWriteBack_iff o)).mono (append_writtenRegs_subset hregs)⟩

end Sys2Proof.Machine
end

section
/-! PROOFS. The scheduler (O15, O16): one turn of `run_events`, the place `add_event` inserts at, and what
`cancel_event` leaves. -/

namespace Sys2Proof.Machine

/-! One turn of `run_events` (R545). -/

section
variable {rest : List OwnerCall} {s : State}

theorem step_of_runEvents (hf : s.fault = none) (ho : s.owner = .runEvents :: rest) : step s = fireOne s := by
  simp only [step, hf, ownerStep, ho]

variable {t : Dword} {id : Nat} {q : List (Dword × Nat)}

theorem fireOne_empty (hq : s.queue = []) : fireOne s = .next s.pop := by
  simp only [fireOne, hq]

theorem fireOne_early (hq : s.queue = (t, id) :: q) (ht : s.currentTime.toNat < t.toNat) : fireOne s = .next s.pop := by
  simp only [fireOne, hq, ht, if_true]

theorem fireOne_due (hq : s.queue = (t, id) :: q) (ht : t.toNat ≤ s.currentTime.toNat) {e : Event}
    (he : s.events.find? (fun e => e.id == id) = some e) : fireOne s = runScript e.callback { s with queue := q } := by
  simp only [fireOne, hq, Nat.not_lt.2 ht, if_false, he]

end

/-- Where handles are fresh, an identity is found under its handle (R541). -/
theorem find?_events {s : State} (h : s.HandlesFresh) {e : Event} (he : e ∈ s.events) :
    s.events.find? (fun x => x.id == e.id) = some e := by
  obtain ⟨before, after, hs⟩ := List.append_of_mem he
  have distinct := h.1
  rw [hs, List.pairwise_append] at distinct
  refine List.find?_eq_some_iff_append.2 ⟨beq_self_eq_true _, before, after, hs, fun x hx => ?_⟩
  simpa using distinct.2.2 x hx e List.mem_cons_self

/-- Settles O15: the three branches of a turn; the callback leaves the owner's calls. -/
theorem schedulerFires : Obligations.SchedulerFires := by
  intro rest s hf ho
  rw [step_of_runEvents hf ho, ← pop_of_owner ho]
  refine ⟨fireOne_empty, fun t id q hq => ⟨fireOne_early hq, fun ht e he hid hfresh => ?_⟩⟩
  have run := fireOne_due hq ht (hid ▸ find?_events hfresh he)
  exact ⟨run, fun u hu => (runScript_keeps _ _ _ (run.symm.trans hu)).owner⟩

/-! The queue's two operations (R542, R543). -/

/-- In an ascending queue the insertion point splits the entries not later from the later ones: the upper bound. -/
theorem insertEvent_split {q : List (Dword × Nat)} (t : Dword) (id : Nat)
    (h : q.Pairwise fun x y => x.1.toNat ≤ y.1.toNat) :
    ∃ before after, q = before ++ after ∧ insertEvent q t id = before ++ (t, id) :: after ∧
      (∀ e ∈ before, e.1.toNat ≤ t.toNat) ∧ ∀ e ∈ after, t.toNat < e.1.toNat := by
  induction q with
  | nil => exact ⟨[], [], rfl, rfl, by simp, by simp⟩
  | cons x rest ih =>
    obtain ⟨hx, hrest⟩ := List.pairwise_cons.1 h
    by_cases hlt : t.toNat < x.1.toNat
    · refine ⟨[], x :: rest, rfl, if_pos hlt, by simp, List.forall_mem_cons.2 ⟨hlt, fun e he => ?_⟩⟩
      exact Nat.lt_of_lt_of_le hlt (hx e he)
    · obtain ⟨before, after, hq, hins, hb, ha⟩ := ih hrest
      refine ⟨x :: before, after, congrArg _ hq, ?_, List.forall_mem_cons.2 ⟨Nat.le_of_not_lt hlt, hb⟩, ha⟩
      exact (if_neg hlt).trans (congrArg _ hins)

/-- Settles O16: insertion at the upper bound, and a filter on the handle. -/
theorem queueOperations : Obligations.QueueOperations := by
  refine ⟨fun delay id s hasc => ?_, fun id s => ⟨List.filter_sublist, fun e => ?_, rfl⟩⟩
  · obtain ⟨before, after, hq, hins, bounds⟩ := insertEvent_split (s.currentTime + delay) id hasc
    exact ⟨before, after, hq, by rw [addEvent, hins], bounds⟩
  · simp [cancelEvent]

end Sys2Proof.Machine
end

section
/-! PROOFS. The interrupt controller: `send_interrupt` (O26) and the registers in the block's registry (O25). -/

namespace Sys2Proof.Machine

/-! Sending an interrupt (R523). -/

theorem getLsbD_one_shiftLeft {n j : Nat} (hn : n < 32) : (1#32 <<< n).getLsbD j = (j == n) := by
  rw [← BitVec.twoPow_eq, BitVec.getLsbD_twoPow, decide_eq_true hn, Bool.true_and]
  exact decide_eq_decide.2 eq_comm

/-- Settles O26: the wake-up condition is the Boolean of `send_interrupt` read as a proposition. -/
theorem sendInterrupt_spec : Obligations.SendInterrupt := by
  intro c kind s
  have core : (sendInterrupt c kind s).core c = _ := core_setCore_same s c _
  have wakes : ((s.core c).ie.getLsbD kind.toNat && ((s.core c).ime || c == .a7)) = true ↔
      (s.core c).ie.getLsbD kind.toNat = true ∧ ((s.core c).ime = true ∨ c = .a7) := by
    rw [Bool.and_eq_true, Bool.or_eq_true, beq_iff_eq]
  dsimp only
  rw [core]
  refine ⟨fun j _ => ?bit, fun h => ?woken, fun h => ?asleep, rfl, rfl, rfl⟩
  case bit => exact (BitVec.getLsbD_or ..).trans (congrArg _ (getLsbD_one_shiftLeft kind.isLt))
  case woken =>
    show ((s.core c).halted && !(_ && _)) = false
    rw [wakes.2 h, Bool.not_true, Bool.and_false]
  case asleep =>
    show ((s.core c).halted && !(_ && _)) = (s.core c).halted
    rw [Bool.eq_false_iff.2 (mt wakes.1 h), Bool.not_false, Bool.and_true]

/-! The registers in the block's registry (R531). -/

/-- The pair of the block's own registry under a key is this register's. -/
def Registered (c : CoreId) (a : Word) (w : Width) (reg : IrqReg) (part : Part) : Prop :=
  findMmio (blockRegistrations .default c) a w =
    some { addr := a, width := w, read := .irq reg part, write := .irq reg part }

/-- Both cores have the nine pairs at the same addresses (R520, R531). -/
theorem registered (c : CoreId) :
    (∀ w, Registered c 0x04000208 w .ime .whole) ∧
    Registered c 0x04000210 .w32 .ie .whole ∧ Registered c 0x04000210 .w16 .ie .low ∧
    Registered c 0x04000212 .w16 .ie .high ∧ Registered c 0x04000214 .w32 .ifl .whole ∧
    Registered c 0x04000214 .w16 .ifl .low ∧ Registered c 0x04000216 .w16 .ifl .high := by
  cases c <;> exact ⟨fun w => by cases w <;> rfl, rfl, rfl, rfl, rfl, rfl, rfl⟩

section
variable {c : CoreId} {a : Word} {w : Width} {reg : IrqReg} {part : Part} {s : State}
  (hm : (s.core c).mmio = blockRegistrations .default c)
  (hloc : ∀ (a : Word) d, a.toNat / 2 ^ 24 = 4 → locate c a d s = .mmio) (ha : alignDown a w = a)
  (hwin : a.toNat / 2 ^ 24 = 4)
include hm hloc ha hwin

theorem memRead_registered (hr : Registered c a w reg part) :
    memRead c a w s = .next (truncate w (irqRead (s.core c) reg part), s) := by
  rw [memRead_mmio (hloc _ _ (by rwa [ha])), ha, mmioRead, hm, hr]

theorem memWrite_registered (hr : Registered c a w reg part) (v : Word) :
    memWrite c a w v s = .next (s.setCore c (irqWrite (s.core c) reg part (truncate w v))) := by
  rw [memWrite_mmio (hloc _ _ (by rwa [ha])), ha, mmioWrite, hm, hr]

/-- An access of another width faults (R97, R98). -/
theorem access_unregistered (hn : findMmio (blockRegistrations .default c) a w = none) (v : Word) :
    memRead c a w s = .fault (.unimplementedAccess c a w .read) ∧
    memWrite c a w v s = .fault (.unimplementedAccess c a w .write) := by
  rw [memRead_mmio (hloc _ _ (by rwa [ha])), memWrite_mmio (hloc _ _ (by rwa [ha])), ha]
  exact ⟨mmioRead_unregistered (hm ▸ hn), mmioWrite_unregistered (hm ▸ hn) _⟩

end

/-! What the halves read and write. -/

section
variable (w : Width) (k : CoreState) (v : Word)

theorem truncate_ime : truncate w (irqRead k .ime .whole) = if k.ime then 1 else 0 := by
  cases w <;> show truncate _ (if k.ime then 1 else 0) = _ <;> cases k.ime <;> rfl

theorem getLsbD_zero_truncate : (truncate w v).getLsbD 0 = v.getLsbD 0 := by
  cases w <;> simp [truncate]

theorem irqWrite_ime : irqWrite k .ime .whole (truncate w v) = { k with ime := v.getLsbD 0 }.updateLatch :=
  congrArg (fun b => CoreState.updateLatch { k with ime := b }) (getLsbD_zero_truncate w v)

theorem truncate_low (x : Word) : truncate .w16 (x &&& 0xFFFF) = x &&& 0xFFFF := by
  rw [truncate, BitVec.and_assoc, BitVec.and_self]

theorem getLsbD_lowHalf : ∀ j < 32, (0x0000FFFF : Word).getLsbD j = decide (j < 16) := by decide
theorem getLsbD_highHalf : ∀ j < 32, (0xFFFF0000 : Word).getLsbD j = decide (16 ≤ j) := by decide

theorem truncate_high (x : Word) : truncate .w16 (x >>> 16) = x >>> 16 := by
  refine BitVec.eq_of_getLsbD_eq fun j hj => ?_
  rw [truncate, BitVec.getLsbD_and, getLsbD_lowHalf j hj, BitVec.getLsbD_ushiftRight]
  by_cases h : j < 16
  · rw [decide_eq_true h, Bool.and_true]
  · rw [BitVec.getLsbD_of_ge x _ (by omega), Bool.false_and]

/-- The high half of a register takes the low half of the value written. -/
theorem highBits : ((v &&& 0xFFFF) <<< 16) &&& (0xFFFF0000 : Word) = v <<< 16 := by
  refine BitVec.eq_of_getLsbD_eq fun j hj => ?_
  rw [BitVec.getLsbD_and, getLsbD_highHalf j hj, BitVec.getLsbD_shiftLeft, BitVec.getLsbD_shiftLeft, BitVec.getLsbD_and,
    getLsbD_lowHalf (j - 16) (by omega), decide_eq_true (by omega : j - 16 < 16), Bool.and_true]
  by_cases h : j < 16 <;> simp [h, Nat.le_of_not_lt]

theorem irqWrite_ie_whole : irqWrite k .ie .whole v = { k with ie := v }.updateLatch := by
  have e : (k.ie &&& 0#32) ||| (v &&& BitVec.allOnes 32) = v := by
    rw [BitVec.and_zero, BitVec.zero_or, BitVec.and_allOnes]
  exact congrArg (fun x => CoreState.updateLatch { k with ie := x }) e

theorem irqWrite_ie_low : irqWrite k .ie .low (truncate .w16 v) =
    { k with ie := (k.ie &&& 0xFFFF0000) ||| (v &&& 0xFFFF) }.updateLatch :=
  congrArg (fun x => CoreState.updateLatch { k with ie := (k.ie &&& 0xFFFF0000) ||| x }) (truncate_low v)

theorem irqWrite_ie_high : irqWrite k .ie .high (truncate .w16 v) =
    { k with ie := (k.ie &&& 0xFFFF) ||| (v <<< 16) }.updateLatch :=
  congrArg (fun x => CoreState.updateLatch { k with ie := (k.ie &&& 0xFFFF) ||| x }) (highBits v)

theorem irqWrite_ifl_whole : irqWrite k .ifl .whole v = { k with ifl := k.ifl &&& ~~~v }.updateLatch :=
  congrArg (fun x => CoreState.updateLatch { k with ifl := k.ifl &&& ~~~x }) (BitVec.and_allOnes (x := v))

theorem irqWrite_ifl_low : irqWrite k .ifl .low (truncate .w16 v) =
    { k with ifl := k.ifl &&& ~~~(v &&& 0xFFFF) }.updateLatch :=
  congrArg (fun x => CoreState.updateLatch { k with ifl := k.ifl &&& ~~~x }) (truncate_low v)

theorem irqWrite_ifl_high : irqWrite k .ifl .high (truncate .w16 v) =
    { k with ifl := k.ifl &&& ~~~(v <<< 16) }.updateLatch :=
  congrArg (fun x => CoreState.updateLatch { k with ifl := k.ifl &&& ~~~x }) (highBits v)

end

/-- The keys at the registers that no pair has, aligned and in the window. -/
theorem unregistered (c : CoreId) : ∀ p ∈ [((0x04000209 : Word), Width.w8), (0x0400020A, .w8), (0x0400020B, .w8),
    (0x0400020A, .w16), (0x04000210, .w8), (0x04000211, .w8), (0x04000212, .w8), (0x04000213, .w8), (0x04000214, .w8),
    (0x04000215, .w8), (0x04000216, .w8), (0x04000217, .w8)],
    alignDown p.1 p.2 = p.1 ∧ p.1.toNat / 2 ^ 24 = 4 ∧ findMmio (blockRegistrations .default c) p.1 p.2 = none := by
  cases c <;> decide

/-- Settles O25: each pair answers by its registration, the other widths by none. -/
theorem interruptRegisters : Obligations.InterruptRegisters := by
  intro c v s hm hloc k
  obtain ⟨rime, rie, rieL, rieH, rif, rifL, rifH⟩ := registered c
  have read {a w reg part} (ha : alignDown a w = a) (hwin : a.toNat / 2 ^ 24 = 4) (hr : Registered c a w reg part) {x : Word}
      (e : truncate w (irqRead k reg part) = x) : memRead c a w s = .next (x, s) :=
    (memRead_registered hm hloc ha hwin hr).trans (by rw [e])
  have write {a w reg part} (ha : alignDown a w = a) (hwin : a.toNat / 2 ^ 24 = 4) (hr : Registered c a w reg part)
      {l : CoreState} (e : irqWrite k reg part (truncate w v) = l) : memWrite c a w v s = .next (s.setCore c l) :=
    (memWrite_registered hm hloc ha hwin hr v).trans (by rw [e])
  have ime (w : Width) : alignDown 0x04000208 w = 0x04000208 := by cases w <;> rfl
  refine ⟨fun w => read (ime w) rfl (rime w) (truncate_ime w k), read rfl rfl rie rfl, read rfl rfl rieL (truncate_low _),
    read rfl rfl rieH (truncate_high _), read rfl rfl rif rfl, read rfl rfl rifL (truncate_low _),
    read rfl rfl rifH (truncate_high _), fun w => write (ime w) rfl (rime w) (irqWrite_ime w k v),
    write rfl rfl rie (irqWrite_ie_whole k v), write rfl rfl rieL (irqWrite_ie_low k v),
    write rfl rfl rieH (irqWrite_ie_high k v), write rfl rfl rif (irqWrite_ifl_whole k v),
    write rfl rfl rifL (irqWrite_ifl_low k v), write rfl rfl rifH (irqWrite_ifl_high k v), fun p hp => ?_⟩
  obtain ⟨ha, hwin, hn⟩ := unregistered c p hp
  exact access_unregistered hm hloc ha hwin hn v

end Sys2Proof.Machine
end

section
/-! PROOFS. Taking an exception (O31) and the software interrupt (O32). The flush at the vector starts from the core
`CoreState.entering`, and every clause reads that core. -/

namespace Sys2Proof.Machine

/-! A jump from a prepared core (R174). -/

section
variable {thumb : Bool} {target p0 p1 : Word} {s : State} {k : CoreState}

theorem cpsr_refilled_setCur : ((s.setCur k).refilled thumb target p0 p1).cur.cpsr = k.cpsr := by
  rw [cur_refilled, cur_setCur]; rfl

theorem x_refilled_setCur {i : BitVec 4} (h : i ≠ 15) : ((s.setCur k).refilled thumb target p0 p1).x i = k.reg i := by
  rw [x_refilled _ _ _ _ _ _ h, State.x, cur_setCur]

theorem buf_refilled_setCur : ((s.setCur k).refilled thumb target p0 p1).buf = s.buf := by
  simp [State.refilled]

theorem core_refilled_setCur_ne {c : CoreId} (h : c ≠ s.running) :
    ((s.setCur k).refilled thumb target p0 p1).core c = s.core c :=
  ((kept_refilled ..).other c (by rwa [setCur_running])).trans (core_setCur_ne s k c h)

variable (ht : k.t = thumb)
include ht

theorem jumpedTo_refilled_setCur : JumpedTo thumb target p0 p1 ((s.setCur k).refilled thumb target p0 p1) :=
  jumpedTo_refilled _ _ _ _ _ ((congrArg CoreState.t (cur_setCur s k)).trans ht)

/-- The words at the target depend on the core through its page table alone (R107). -/
theorem branchTo_setCur (htable : k.pageTable = s.cur.pageTable) (hf : Fetches thumb target s p0 p1) :
    branchTo target (s.setCur k) = .next ((s.setCur k).refilled thumb target p0 p1) := by
  have hcur : (s.setCur k).cur.t = thumb := (congrArg CoreState.t (cur_setCur s k)).trans ht
  rw [branchTo_fetches (by rw [hcur]; exact (fetches_setCur htable).2 hf), hcur]

end

/-! The entry (R502, R505). -/

/-- The executing core after an exception has switched to `mode`, saved the status and linked, before the jump (R502). -/
def CoreState.entering (mode : BitVec 5) (new : Bank) (lr : Word) (k : CoreState) : CoreState :=
  CoreState.setReg { (swapBanks k.bank new k).setMode mode with
    spsr := k.spsr.set new k.cpsr,
    cpsr := setBit (setBit ((swapBanks k.bank new k).setMode mode).cpsr 7 true) 5 false } 14 lr

/-- Taking an exception in a legal mode is a jump from `entering` (R502). -/
theorem enterException_eq {m : Word} {b : Bank} (hb : bankOf (m.extractLsb' 0 5) = some b) (vector lr : Word) (s : State) :
    enterException m vector lr s =
      branchTo (excBase s + vector) (s.setCur (s.cur.entering (m.extractLsb' 0 5) b lr)) := by
  obtain ⟨-, hspsr, -⟩ := swapBanks_frame s.cur.bank b s.cur
  rw [enterException, switchMode_valid hb, bind_next]
  simp only [excBase, cur_setCur, setCur_setCur, setCur_running, setCur_ctl, bank_setMode _ hb, setMode_spsr, hspsr]
  rfl

theorem excBase_eq (s : State) :
    excBase s = if s.running = .a9 ∧ s.ctl.cp15Control.getLsbD 13 = true then 0xFFFF0000 else 0 := by
  unfold excBase
  cases s.running <;> simp [RegionControl.controlBit, Params.highBase]

theorem spsr_get_set_same {b : Bank} (h : b ≠ .usr) (p : Spsrs) (v : Word) : (p.set b v).get b = some v := by
  cases b <;> first | rfl | exact absurd rfl h

theorem spsr_get_set_ne {b d : Bank} (h : d ≠ b) (p : Spsrs) (v : Word) : (p.set b v).get d = p.get d := by
  cases b <;> cases d <;> first | rfl | exact absurd rfl h

section
variable (mode : BitVec 5) (b : Bank) (lr : Word) (k : CoreState)

/-- Its status, bit by bit: the mode, I set, T clear, the rest as before (R502). -/
theorem getLsbD_cpsr_entering {j : Nat} (hj : j < 32) : (k.entering mode b lr).cpsr.getLsbD j =
    if j < 5 then mode.getLsbD j else if j = 5 then false else if j = 7 then true else k.cpsr.getLsbD j := by
  obtain ⟨hcpsr, -⟩ := swapBanks_frame k.bank b k
  have mask : ∀ j < 32, (0xFFFFFFE0 : Word).getLsbD j = decide (5 ≤ j) := by decide
  show (setBit (setBit ((swapBanks k.bank b k).setMode mode).cpsr 7 true) 5 false).getLsbD j = _
  rw [getLsbD_setBit _ _ _ _ (by decide), getLsbD_setBit _ _ _ _ (by decide), cpsr_setMode, hcpsr, BitVec.getLsbD_or,
    BitVec.getLsbD_and, mask j hj, BitVec.getLsbD_setWidth, decide_eq_true hj, Bool.true_and]
  by_cases h5 : j < 5
  · simp [h5, show j ≠ 5 by omega, show j ≠ 7 by omega]
  · simp [h5, Nat.le_of_not_lt h5]

theorem mode_entering : (k.entering mode b lr).mode = mode := by
  refine BitVec.eq_of_getLsbD_eq fun j hj => ?_
  rw [CoreState.mode, BitVec.getLsbD_extractLsb', decide_eq_true hj, Bool.true_and, Nat.zero_add,
    getLsbD_cpsr_entering _ _ _ _ (by omega), if_pos hj]

theorem iBit_entering : (k.entering mode b lr).iBit = true := getLsbD_cpsr_entering mode b lr k (j := 7) (by decide)

theorem t_entering : (k.entering mode b lr).t = false := getLsbD_cpsr_entering mode b lr k (j := 5) (by decide)

/-- No status bit but the mode, T and I changes. -/
theorem status_entering : (k.entering mode b lr).cpsr &&& ~~~0xBF = k.cpsr &&& ~~~0xBF := by
  have mask : ∀ j < 32, (~~~0xBF : Word).getLsbD j = true → ¬j < 5 ∧ j ≠ 5 ∧ j ≠ 7 := by decide
  refine BitVec.eq_of_getLsbD_eq fun j hj => ?_
  rw [BitVec.getLsbD_and, BitVec.getLsbD_and, getLsbD_cpsr_entering _ _ _ _ hj]
  cases hm : (~~~0xBF : Word).getLsbD j with
  | false => rw [Bool.and_false, Bool.and_false]
  | true =>
    obtain ⟨h5, ht, hi⟩ := mask j hj hm
    rw [if_neg h5, if_neg ht, if_neg hi]

theorem reg_entering {i : BitVec 4} (h : i ≠ 14) : (k.entering mode b lr).reg i = (swapBanks k.bank b k).reg i :=
  reg_setReg_ne _ _ _ _ h

end

/-- Without FIQ on either side R0 to R12 stay through a bank swap (R17). -/
theorem reg_swapBanks_low {old new : Bank} (ho : old ≠ .fiq) (hn : new ≠ .fiq) (k : CoreState) {i : BitVec 4} (h : i < 13) :
    (swapBanks old new k).reg i = k.reg i := by
  rcases (by revert i; decide : i.toNat < 8 ∨ (8 ≤ i ∧ i ≤ 12)) with hlow | ⟨h8, h12⟩
  · exact reg_swapBanks _ _ _ _ (.inl hlow)
  · exact reg_of_r8to12 (swapBanks_r8to12_kept (iff_of_false ho hn) k).1 h8 h12

/-- The bank of either exception mode has an SPSR and is not FIQ's. -/
theorem bankOf_exceptionMode {m : Word} {b : Bank} (h : (m = 0x12 ∧ b = .irq) ∨ (m = 0x13 ∧ b = .svc)) :
    bankOf (m.extractLsb' 0 5) = some b ∧ b ≠ .usr ∧ b ≠ .fiq := by
  rcases h with ⟨rfl, rfl⟩ | ⟨rfl, rfl⟩ <;> decide

/-- Settles O31: each clause is a fact of `entering` or of the bank swap inside it. -/
theorem enterException_spec : Obligations.EnterException := by
  intro m vector lr p0 p1 b s hm base hf
  obtain ⟨hb, husr, hfiq⟩ := bankOf_exceptionMode hm
  obtain ⟨-, -, -, -, hhalted, htime, hime, hie, hifl, hlatch, -, -, htable, -⟩ := swapBanks_frame s.cur.bank b s.cur
  let k : CoreState := s.cur.entering (m.extractLsb' 0 5) b lr
  have ht : k.t = false := t_entering ..
  let t : State := (s.setCur k).refilled false (base + vector) p0 p1
  have kept : Kept (s.setCur k) t := kept_refilled ..
  have run : enterException m vector lr s = .next t := by
    rw [enterException_eq hb, excBase_eq]
    exact branchTo_setCur ht htable hf
  have hcpsr : t.cur.cpsr = k.cpsr := cpsr_refilled_setCur
  have hreg (i : BitVec 4) (h14 : i ≠ 14) (h15 : i ≠ 15) : t.x i = (swapBanks s.cur.bank b s.cur).reg i :=
    (x_refilled_setCur h15).trans (reg_entering _ _ _ _ h14)
  refine ⟨t, run, jumpedTo_refilled_setCur ht, ?_⟩
  rw [kept.spsr, kept.bankR13, kept.bankR14, kept.halted, kept.ime, kept.ie, kept.ifl, kept.irqLatch, kept.timestamp, cur_setCur]
  refine ⟨spsr_get_set_same husr _ _, fun d hd => spsr_get_set_ne hd _ _, ?mode, ?iBit, ?status, ?link, hreg, rfl, rfl,
    fun hs i hi => ?low, hhalted, hime, hie, hifl, hlatch, htime, fun _ _ => ?memory,
    fun d hd => core_refilled_setCur_ne hd, kept.ctl.trans (setCur_ctl ..), kept.running.trans (setCur_running ..)⟩
  case mode => exact (congrArg (·.extractLsb' 0 5) hcpsr).trans (mode_entering _ b lr _)
  case iBit => exact (congrArg (·.getLsbD 7) hcpsr).trans (iBit_entering _ b lr _)
  case status => exact (congrArg (· &&& ~~~0xBF) hcpsr).trans (status_entering _ b lr _)
  case link => exact (x_refilled_setCur (by decide)).trans (reg_setReg_same _ _ _)
  case low =>
    have ne : i ≠ 14 ∧ i ≠ 15 := by revert i; decide
    exact (hreg i ne.1 ne.2).trans (reg_swapBanks_low hs hfiq _ hi)
  case memory => rw [State.byteAt, State.byteAt, show t.buf = s.buf from buf_refilled_setCur]

/-! The software interrupt (R503). -/

/-- Both forms, once they run, raise SWI (R380, R472). -/
theorem exec_swi {i : Instr} {s : State}
    (h : (∃ o, i = .swi o ∧ condPassed o.cond s.cur = true) ∨ (∃ o, i = .tSwi o)) : exec i s = raiseSwi s := by
  rcases h with ⟨o, rfl, hc⟩ | ⟨o, rfl⟩
  · exact conditional_passed hc _
  · rfl

/-- The flags and Q are outside the bits an exception changes. -/
theorem flags_of_statusKept {s t : State} (h : StatusKept 0xBF s t) : t.cur.flags = s.cur.flags ∧ t.cur.q = s.cur.q := by
  have bit (j : Nat) (hj : (~~~0xBF : Word).getLsbD j = true) : t.cur.cpsr.getLsbD j = s.cur.cpsr.getLsbD j := by
    have e := congrArg (·.getLsbD j) h
    simpa only [BitVec.getLsbD_and, hj, Bool.and_true] using e
  refine ⟨?_, bit 27 (by decide)⟩
  unfold CoreState.flags CoreState.n CoreState.z CoreState.c CoreState.v
  rw [bit 31 (by decide), bit 30 (by decide), bit 29 (by decide), bit 28 (by decide)]

/-- Settles O32: both are the entry of O31, SWI in Supervisor mode at vector 8. -/
theorem softwareInterrupt : Obligations.SoftwareInterrupt := by
  intro s svcLr irqLr target
  refine ⟨rfl, fun i hi => ⟨exec_swi hi, fun p0 p1 hf => ?_⟩⟩
  obtain ⟨t, run, jumped, saved, -, hmode, hI, status, link, -, -, -, -, -, -, -, -, -, -, memory, -⟩ :=
    enterException_spec 0x13 0x08 svcLr p0 p1 .svc s (.inr ⟨rfl, rfl⟩) hf
  obtain ⟨hflags, hq⟩ := flags_of_statusKept status
  exact ⟨t, (exec_swi hi).trans run, jumped, link, Option.some.inj saved, hmode, hI, hflags, hq, memory⟩

end Sys2Proof.Machine
end

section
/-! PROOFS. The terminal fault (O14), `reset` of one core (O7) and `direct_boot` of a core just reset (O8), whose two mode switches
leave a stack pointer each in the bank they leave. -/

namespace Sys2Proof.Machine

/-- Settles O14: `step` asks for the fault first, and construction without an image records one. -/
theorem hardFaultStops : Obligations.HardFaultStops :=
  ⟨fun s f h => by rw [step, h], fun _ _ => rfl, fun _ _ => rfl⟩

/-! Reset (R570, R571). -/

theorem reg_cleared (i : BitVec 4) : CoreState.cleared.reg i = 0 := by
  simp [CoreState.cleared, CoreState.reg, Vector.get_eq_getElem]

theorem get_replicate_five (i : Fin 5) : (Vector.replicate 5 (0 : Word)).get i = 0 := by
  simp [Vector.get_eq_getElem]

/-- The core after reset is the cleared one, but for its registry and its tables, which core A7 keeps (R571). -/
theorem core_resetCore (c : CoreId) (s : State) :
    ∃ table, (resetCore c s).core c = { CoreState.cleared with pageTable := table, mmio := (s.core c).mmio } ∧
      (c = .a7 → table = (s.core c).pageTable) := by
  cases c with
  | a7 => exact ⟨_, rfl, fun _ => rfl⟩
  | a9 => exact ⟨_, rfl, nofun⟩

theorem core_resetCore_ne {c d : CoreId} (h : d ≠ c) (s : State) : (resetCore c s).core d = s.core d := by
  cases c <;> cases d <;> first | rfl | exact absurd rfl h

/-- Settles O7: the cleared core, core A9's rebuild, and on either core nothing else. -/
theorem resetCore_spec : Obligations.ResetCore := by
  intro c s
  obtain ⟨table, hcore, htable⟩ := core_resetCore c s
  dsimp only
  rw [hcore]
  refine ⟨reg_cleared, rfl, rfl, get_replicate_five, get_replicate_five, rfl, rfl, rfl, rfl, rfl, rfl, rfl, rfl, rfl, rfl,
    rfl, rfl, rfl, ?a9, ?a7, fun d hd => core_resetCore_ne hd s, ?rest⟩
  case a9 =>
    rintro rfl
    exact ⟨rfl, rfl, rfl, tablesFresh_rebuildA9 _⟩
  case a7 =>
    rintro rfl
    exact ⟨rfl, htable rfl⟩
  case rest => cases c <;> exact ⟨rfl, rfl, rfl, rfl, rfl, rfl, rfl, rfl, rfl, rfl, rfl⟩

/-! Direct boot (R573). -/

theorem setReg_reg (k : CoreState) (i : BitVec 4) : k.setReg i (k.reg i) = k := by
  simp [CoreState.setReg, CoreState.reg, Vector.get_eq_getElem]

theorem setReg_setReg_same (k : CoreState) (i : BitVec 4) (v w : Word) : (k.setReg i v).setReg i w = k.setReg i w := by
  simp [CoreState.setReg]

section
variable {k : CoreState} (h13 : k.reg 13 = 0) (h14 : k.reg 14 = 0) (hb : k.bankR14 = .all 0)
include h13 h14 hb

/-- Leaving a bank whose R13 was seeded stores the seed in its slot, and is no other change where R13 and R14 are zero in the
bank entered too (R17). -/
theorem swapBanks_seed {old new : Bank} (hne : old ≠ new) (ho : old ≠ .fiq) (hn : new ≠ .fiq)
    (hnew : k.bankR13.get new = 0) (v : Word) :
    swapBanks old new (k.setReg 13 v) = { k with bankR13 := k.bankR13.set old v } := by
  have back : ((k.setReg 13 v).setReg 13 0).setReg 14 0 = k := by
    rw [setReg_setReg_same, ← h13, setReg_reg, h13, ← h14, setReg_reg]
  have zeroSet : (Banked.all 0).set old 0 = .all 0 := by cases old <;> rfl
  have zeroGet : (Banked.all 0).get new = 0 := by cases new <;> rfl
  rw [swapBanks_ne hne, swapFiq_neither ho hn, swapLow, reg_setReg_same, reg_setReg_ne _ _ _ _ (by decide), h14]
  simp only [setReg_bankR13, setReg_bankR14, hb, zeroSet, zeroGet, get_set_ne_bank _ _ hne.symm, hnew]
  refine (congrArg (fun j : CoreState => { j with bankR13 := k.bankR13.set old v, bankR14 := .all 0 }) back).trans ?_
  rw [← hb]

end

/-- A core on its way through `direct_boot` (R573): as after reset, but for its status and two stack pointers in their slots. -/
def CoreState.booting (cpsr irq svc : Word) (k : CoreState) : CoreState :=
  { k.resetCore with bankR13 := { Banked.all 0 with irq := irq, svc := svc }, cpsr := cpsr }

/-- Seeding R13 on the way and switching to a bank not seeded yet moves the seed to the slot of the bank left. -/
theorem switchMode_booting {m cpsr cpsr' irq irq' svc svc' v : Word} {k : CoreState} {old new : Bank} {s : State}
    (hs : s.cur = k.booting cpsr irq svc) (hold : bankOf (cpsr.extractLsb' 0 5) = some old)
    (hm : bankOf (m.extractLsb' 0 5) = some new) (hne : old ≠ new) (ho : old ≠ .fiq) (hn : new ≠ .fiq)
    (hnew : (k.booting cpsr irq svc).bankR13.get new = 0)
    (hseed : (k.booting cpsr irq svc).bankR13.set old v = { Banked.all 0 with irq := irq', svc := svc' })
    (hcpsr : (cpsr &&& 0xFFFFFFE0) ||| (m.extractLsb' 0 5).setWidth 32 = cpsr') :
    switchMode m (s.setX 13 v) = .next (s.setCur (k.booting cpsr' irq' svc')) := by
  have hbank : (k.booting cpsr irq svc).bank = old := congrArg (·.getD .usr) hold
  have seed := swapBanks_seed (k := k.booting cpsr irq svc) (reg_cleared 13) (reg_cleared 14) rfl hne ho hn hnew v
  rw [switchMode_valid hm, cur_setX, hs, bank_setReg, hbank, seed, State.setX, setCur_setCur, hseed, CoreState.setMode]
  exact congrArg (fun w => Host.Outcome.next (s.setCur (k.booting w irq' svc'))) hcpsr

theorem switchMode_boot_irq {s : State} {k : CoreState} (hs : s.cur = k.resetCore) (svc : Word) :
    switchMode 0x12 (s.setX 13 svc) = .next (s.setCur (k.booting 0x000000D2 0 svc)) :=
  switchMode_booting (cpsr := 0x000000D3) (irq := 0) (svc := 0) (old := .svc) (new := .irq) hs (by decide) (by decide)
    (by decide) (by decide) (by decide) rfl rfl (by decide)

theorem switchMode_boot_sys {s : State} {k : CoreState} {svc : Word} (hs : s.cur = k.booting 0x000000D2 0 svc) (irq : Word) :
    switchMode 0x1F (s.setX 13 irq) = .next (s.setCur (k.booting 0x000000DF irq svc)) :=
  switchMode_booting (old := .irq) (new := .usr) hs (by decide) (by decide) (by decide) (by decide) (by decide) rfl rfl
    (by decide)

/-- The core `direct_boot` jumps from (R573). -/
def CoreState.directBooted (entry sys irq svc : Word) (k : CoreState) : CoreState :=
  { (((k.booting 0x000000DF irq svc).setReg 13 sys).setReg 12 entry).setReg 14 entry with booted := true }

/-- The two switches seed the Supervisor and IRQ banks on the way to System mode. -/
theorem directBoot_eq {c : CoreId} {s : State} (h : s.core c = (s.core c).resetCore) (entry : Word) :
    directBoot c entry s = branchTo entry (({ s with running := c } : State).setCur ((s.core c).directBooted entry
      (s.par.bootSpSys.get c) (s.par.bootSpIrq.get c) (s.par.bootSpSvc.get c))) := by
  rw [directBoot, switchMode_boot_irq (s := { s with running := c }) h, bind_next, switchMode_boot_sys (cur_setCur _ _),
    bind_next]
  simp only [State.setX, cur_setCur, setCur_setCur]
  rfl

theorem t_directBooted (entry sys irq svc : Word) (k : CoreState) : (k.directBooted entry sys irq svc).t = false := by
  show (0x000000DF : Word).getLsbD 5 = false
  decide

theorem reg_directBooted (entry sys irq svc : Word) (k : CoreState) (i : BitVec 4) :
    (k.directBooted entry sys irq svc).reg i =
      if i = 14 then entry else if i = 12 then entry else if i = 13 then sys else 0 := by
  show ((((k.booting 0x000000DF irq svc).setReg 13 sys).setReg 12 entry).setReg 14 entry).reg i = _
  rw [reg_setReg, reg_setReg, reg_setReg]
  exact congrArg (fun v => if i = 14 then entry else if i = 12 then entry else if i = 13 then sys else v) (reg_cleared i)

/-- Settles O8: the jump to the entry starts from `directBooted`, and every clause reads that core or what the jump keeps. -/
theorem directBoot_spec : Obligations.DirectBoot := by
  intro c entry p0 p1 s h hf
  let r : State := { s with running := c }
  let k : CoreState := (s.core c).directBooted entry (s.par.bootSpSys.get c) (s.par.bootSpIrq.get c) (s.par.bootSpSvc.get c)
  have ht : k.t = false := t_directBooted ..
  let t : State := (r.setCur k).refilled false entry p0 p1
  have run : directBoot c entry s = .next t := (directBoot_eq h entry).trans (branchTo_setCur (s := r) ht rfl hf)
  have kept : Kept (r.setCur k) t := kept_refilled ..
  have hx {i : BitVec 4} (hi : i ≠ 15) : t.x i = _ := (x_refilled_setCur hi).trans (reg_directBooted ..)
  refine ⟨t, run, kept.running.trans (setCur_running ..), jumpedTo_refilled_setCur ht, hx (by decide), hx (by decide),
    hx (by decide), fun i hi => ?low, ?_⟩
  case low =>
    have ne : i ≠ 12 ∧ i ≠ 13 ∧ i ≠ 14 ∧ i ≠ 15 := by revert i; decide
    obtain ⟨h12, h13, h14, h15⟩ := ne
    rw [hx h15, if_neg h14, if_neg h12, if_neg h13]
  rw [show t.cur.cpsr = k.cpsr from cpsr_refilled_setCur, kept.bankR13, kept.bankR14, kept.fiqR8, kept.nonfiqR8, kept.spsr,
    kept.mmio, kept.pageTable, kept.booted, kept.halted, kept.ime, kept.ie, kept.ifl, kept.irqLatch, kept.timestamp,
    kept.unknownLog, cur_setCur]
  refine ⟨rfl, rfl, rfl, rfl, rfl, rfl, rfl, rfl, get_replicate_five, get_replicate_five, rfl, rfl, rfl, rfl, rfl, rfl, rfl,
    rfl, rfl, rfl, rfl, fun d hd => core_refilled_setCur_ne (s := r) hd, kept.par.trans (setCur_par ..),
    kept.ctl.trans (setCur_ctl ..), buf_refilled_setCur, kept.fields.trans (setCur_fields ..),
    kept.currentTime.trans (setCur_currentTime ..), kept.queue.trans (setCur_queue ..), kept.events.trans (setCur_events ..),
    kept.nextId.trans (setCur_nextId ..), kept.fault.trans (setCur_fault ..), kept.owner.trans (setCur_owner ..),
    kept.freeCount.trans (setCur_freeCount ..)⟩

end Sys2Proof.Machine
end
